-- ==== Sys2Proof/Word.lean ====
section
/-! DEFINITION. The word types of the block's ports (00_scope.md R7, R8; 30_encoding.md R61). -/

namespace Sys2Proof

/-- One byte of a buffer or a frame (20_memory.md R41). -/
abbrev Byte := BitVec 8

/-- A 16-bit word, read as `u16` or as `i16` (00_scope.md R8). -/
abbrev Word := BitVec 16

/-- A sender id or a recipient id, 3 bits (00_scope.md R6, `N_SENDER`). -/
abbrev DevId := BitVec 3

/-- A socket, 4 bits (00_scope.md R6, `N_SOCKET`). -/
abbrev Socket := BitVec 4

end Sys2Proof
end

