-- ==== Sys2Proof/Syntax.lean ====
section
/-! DEFINITION. The request bundle (30_encoding.md R61) and the operations it spells (30_encoding.md R65). -/

namespace Sys2Proof

/-- The request bundle of 30_encoding.md R61: parallel named fields, not a packed word (R60).
A field a request does not name is 0 (R68). A 1-bit field is a Bool, 1 being true (log entry 8). -/
structure Request where
  op   : BitVec 4
  a    : Word := 0
  lim  : Word := 0
  bc   : Bool := false
  rcpt : DevId := 0
  snd  : DevId := 0
  skt  : Socket := 0
  code : Byte := 0
  len  : BitVec 5 := 0
  buf  : Vector Byte 16 := Vector.replicate 16 0
deriving DecidableEq, Repr

/-- The operand of an operation on a byte sequence: the request's `len` and the bytes `buf[0..len-1]` it may read.
The operation never reads `buf[i]` for `i >= len`, and nothing of `buf` when `len > 16` (30_encoding.md R61), so those
bytes are no part of it. -/
structure Buffer where
  len   : BitVec 5
  bytes : List Byte
deriving DecidableEq, Repr

/-- The operations, one constructor for each row of spec/opcode_table.json; each holds the fields that 30_encoding.md
R65 says the operation reads. The three rows of the mnemonic ILLEGAL (op 0x0, 0xE, 0xF) are three constructors. -/
inductive Instr where
  /-- ENCW, 40_integer_codec.md R100. -/
  | encw (a : Word)
  /-- DECW, 40_integer_codec.md R102: the bytes `buf[0..3]`. -/
  | decw (b0 b1 b2 b3 : Byte)
  /-- ENCS, 40_integer_codec.md R104. -/
  | encs (a lim : Word)
  /-- DECS, 40_integer_codec.md R107: the bytes `buf[0..3]`. -/
  | decs (b0 b1 b2 b3 : Byte)
  /-- ENCF, 41_frame_codec.md R121. -/
  | encf (bc : Bool) (rcpt : DevId) (p : Buffer)
  /-- DECF, 41_frame_codec.md R123. -/
  | decf (f : Buffer)
  /-- ERRD, 42_error_decoder.md R141. -/
  | errd (skt : Socket) (code : Byte)
  /-- SACK, 43_session.md R154. -/
  | sack (snd : DevId) (skt : Socket)
  /-- SCMP, 43_session.md R155. -/
  | scmp (snd : DevId) (skt : Socket)
  /-- RECV, 43_session.md R156. -/
  | recv (f : Buffer)
  /-- WSTART, 43_session.md R160. -/
  | wstart (snd : DevId) (skt : Socket)
  /-- WACK, 43_session.md R166. -/
  | wack (f : Buffer)
  /-- WTMO, 43_session.md R170. -/
  | wtmo
  /-- op 0x0, 30_encoding.md R66. -/
  | illegal0
  /-- op 0xE, 30_encoding.md R66. -/
  | illegalE
  /-- op 0xF, 30_encoding.md R66. -/
  | illegalF
deriving DecidableEq, Repr

end Sys2Proof
end

