-- ==== Sys2Proof/WellFormed.lean ====
section
/-! DEFINITION. The check on instructions: a buffer operand holds exactly the bytes its `len` makes readable. -/

namespace Sys2Proof

/-- How many bytes of `buf` a request of length `len` makes readable: `len` of them when `len <= 16`, else none,
since the request is rejected before `buf` is read (30_encoding.md R61). -/
def readableBytes (len : BitVec 5) : Nat :=
  if len.toNat ≤ 16 then len.toNat else 0

/-- A buffer operand that a request bundle can give. -/
def Buffer.wf (b : Buffer) : Bool :=
  b.bytes.length == readableBytes b.len

/-- An instruction that a request bundle can give. -/
def Instr.wf : Instr → Bool
  | .encw _ => true
  | .decw _ _ _ _ => true
  | .encs _ _ => true
  | .decs _ _ _ _ => true
  | .encf _ _ p => p.wf
  | .decf f => f.wf
  | .errd _ _ => true
  | .sack _ _ => true
  | .scmp _ _ => true
  | .recv f => f.wf
  | .wstart _ _ => true
  | .wack f => f.wf
  | .wtmo => true
  | .illegal0 => true
  | .illegalE => true
  | .illegalF => true

end Sys2Proof
end

