-- ==== Sys2Proof/Decode.lean ====
section
/-! DEFINITION. From a request bundle to an operation and back (30_encoding.md R64, R65, R66). -/

namespace Sys2Proof

/-- The buffer operand of a request: `len` and the bytes `buf[0..len-1]`, none when `len > 16` (30_encoding.md R61). -/
def bufferOf (len : BitVec 5) (buf : Vector Byte 16) : Buffer :=
  { len := len, bytes := buf.toList.take (readableBytes len) }

/-- The op map of 30_encoding.md R65, read by `op` alone (R64). It is total: all 16 values of the 4-bit field stand in
the map, and 0x0, 0xE and 0xF are the operations that answer IllegalOp (R66). -/
def decode (r : Request) : Instr :=
  match r.op.toNat with
  | 0x0 => .illegal0
  | 0x1 => .encw r.a
  | 0x2 => .decw r.buf[0] r.buf[1] r.buf[2] r.buf[3]
  | 0x3 => .encs r.a r.lim
  | 0x4 => .decs r.buf[0] r.buf[1] r.buf[2] r.buf[3]
  | 0x5 => .encf r.bc r.rcpt (bufferOf r.len r.buf)
  | 0x6 => .decf (bufferOf r.len r.buf)
  | 0x7 => .errd r.skt r.code
  | 0x8 => .sack r.snd r.skt
  | 0x9 => .scmp r.snd r.skt
  | 0xA => .recv (bufferOf r.len r.buf)
  | 0xB => .wstart r.snd r.skt
  | 0xC => .wack (bufferOf r.len r.buf)
  | 0xD => .wtmo
  | 0xE => .illegalE
  | _   => .illegalF -- 0xF, the one value of 4 bits that is left

/-- The op code of an instruction: the "match" column of spec/opcode_table.json (30_encoding.md R65). -/
def Instr.opcode : Instr → BitVec 4
  | .encw _ => 0x1
  | .decw _ _ _ _ => 0x2
  | .encs _ _ => 0x3
  | .decs _ _ _ _ => 0x4
  | .encf _ _ _ => 0x5
  | .decf _ => 0x6
  | .errd _ _ => 0x7
  | .sack _ _ => 0x8
  | .scmp _ _ => 0x9
  | .recv _ => 0xA
  | .wstart _ _ => 0xB
  | .wack _ => 0xC
  | .wtmo => 0xD
  | .illegal0 => 0x0
  | .illegalE => 0xE
  | .illegalF => 0xF

/-- A byte sequence at indices 0, 1, ... of a 16-byte port, 0 in the places that are left (30_encoding.md R63, R68). -/
def padTo16 (l : List Byte) : Vector Byte 16 :=
  Vector.ofFn fun i => l.getD i 0

/-- The request bundle of an instruction in the assembly of 30_encoding.md R68: `op` and the named fields, the others 0. -/
def encode : Instr → Request
  | .encw a => { op := 0x1, a := a }
  | .decw b0 b1 b2 b3 => { op := 0x2, buf := padTo16 [b0, b1, b2, b3] }
  | .encs a lim => { op := 0x3, a := a, lim := lim }
  | .decs b0 b1 b2 b3 => { op := 0x4, buf := padTo16 [b0, b1, b2, b3] }
  | .encf bc rcpt p => { op := 0x5, bc := bc, rcpt := rcpt, len := p.len, buf := padTo16 p.bytes }
  | .decf f => { op := 0x6, len := f.len, buf := padTo16 f.bytes }
  | .errd skt code => { op := 0x7, skt := skt, code := code }
  | .sack snd skt => { op := 0x8, snd := snd, skt := skt }
  | .scmp snd skt => { op := 0x9, snd := snd, skt := skt }
  | .recv f => { op := 0xA, len := f.len, buf := padTo16 f.bytes }
  | .wstart snd skt => { op := 0xB, snd := snd, skt := skt }
  | .wack f => { op := 0xC, len := f.len, buf := padTo16 f.bytes }
  | .wtmo => { op := 0xD }
  | .illegal0 => { op := 0x0 }
  | .illegalE => { op := 0xE }
  | .illegalF => { op := 0xF }

/-- The buffer operand that holds the bytes `l`, as `[b0 b1 ...]` in the assembly of 30_encoding.md R68. -/
def Buffer.ofList (l : List Byte) : Buffer :=
  { len := BitVec.ofNat 5 l.length, bytes := l }

/-- The request bundle a row's word of spec/opcode_table.json stands for: the table numbers the bits of `op` alone
(bits 3:0); the bundle is not a packed word (30_encoding.md R60), so a word's other bits are no field of it, and every
other field is 0. DESIGN CHOICE, log entry 5 (safe). -/
def tableRequest (nbits w : Nat) : Request :=
  { op := BitVec.ofNat 4 (w % 2 ^ nbits) }

/-- The instruction the decoder reads from a table word; none for a word too short to hold `op`. -/
def decodeTableWord (nbits w : Nat) : Option Instr :=
  if 4 ≤ nbits then some (decode (tableRequest nbits w)) else none

end Sys2Proof
end

