-- ==== Sys2Proof/Config.lean ====
section
/-! DEFINITION. The implementation parameters the spec leaves open (00_scope.md R6). -/

namespace Sys2Proof

/-- The two OPEN parameters of 00_scope.md R6. They are configuration, not state: no request changes them
(10_state.md R28). State carries them so that a statement about every state is one about every configuration
(log entry 1). -/
structure Config where
  /-- `TERM`, the frame terminator (D4). -/
  term   : Byte
  /-- `NETCHG`, the network-change sentinel compared with byte 1 of a frame (D5). -/
  netchg : Byte
deriving DecidableEq, Repr

/-- The defaults the spec uses in its examples: `TERM = 0xFF`, `NETCHG = 0x38` (00_scope.md R6).
DESIGN CHOICE, log entry 1 (unsafe for a claim that leans on the two numbers). -/
def Config.specDefault : Config := { term := 0xFF, netchg := 0x38 }

end Sys2Proof
end

