-- ==== Sys2Proof/Machine/State.lean ====
section
/-! DEFINITION. The state of the block, its ports, and the reasons a step can stop. -/

namespace Sys2Proof.Machine

/-- The status of a session cell (10_state.md R21). The fourth value of the 2-bit cell is never written and
unreachable; it is excluded by type (93_implementation_defined.md I12, log entry 7). -/
inductive SessSt where
  | idle
  | outstanding
  | completed
deriving DecidableEq, Repr

/-- The wait register (10_state.md R24): `V`, `SND`, `SKT`. Its 8-bit form is `WaitReg.bits` in Ops.lean. -/
structure WaitReg where
  v   : Bool
  snd : DevId
  skt : Socket
deriving DecidableEq, Repr

/-- The names of the `status` codes (30_encoding.md R62). -/
inductive Status where
  | ok | err | pending
deriving DecidableEq, Repr

/-- The error kinds of 60_exceptions.md R200. -/
inductive ErrKind where
  | protocolFraming | invalidEncoding | payloadTooLarge | protocolError | deviceError
  | networkChange | duplicateAck | timeout | invalidArgument | illegalOp
deriving DecidableEq, Repr

/-- The device-error sub-kinds of 42_error_decoder.md R140. -/
inductive DevSub where
  | syntaxError | commandBufferFull | commandCanceled | invalidSocket | commandNotExecutable | unknownDeviceError
deriving DecidableEq, Repr

/-- The anomalies of 60_exceptions.md R203. -/
inductive Anomaly where
  | unexpectedCompletion | staleCompletionDiscarded
deriving DecidableEq, Repr

/-- How a wait ends (30_encoding.md R62, `waitEnd`). -/
inductive WaitEnd where
  | done | aborted | timeout
deriving DecidableEq, Repr

/-- The kinds of a parsed reply (30_encoding.md R79). -/
inductive ReplyKind where
  | data | ack | completion
deriving DecidableEq, Repr

/-- A decoded device error: sub-kind, code and socket (42_error_decoder.md R140). -/
structure DevErr where
  sub  : DevSub
  code : Byte
  skt  : Socket
deriving DecidableEq, Repr

/-- The session events (43_session.md R150). -/
inductive Event where
  | ack | cmpl
deriving DecidableEq, Repr

/-- The response bundle of 30_encoding.md R62, its fields as the host reads them at the port. A field that no rule
drives is 0 (R63). A 1-bit field is a Bool, 1 being true (log entry 8). -/
structure Response where
  status  : BitVec 2 := 0
  err     : BitVec 4 := 0
  dsub    : BitVec 3 := 0
  dcode   : Byte := 0
  dskt    : Socket := 0
  anomaly : BitVec 2 := 0
  waitEnd : BitVec 2 := 0
  w       : Word := 0
  olen    : BitVec 5 := 0
  obuf    : Vector Byte 16 := Vector.replicate 16 0
  hv      : Bool := false
  psnd    : DevId := 0
  pbc     : Bool := false
  prcpt   : DevId := 0
  ptype   : BitVec 4 := 0
  pskt    : Socket := 0
  pkind   : BitVec 2 := 0
deriving DecidableEq, Repr

/-- The response bundle with no field driven: every field 0 (30_encoding.md R63). -/
def Response.undriven : Response := {}

/-- What the host can present to the block: the reset input (70_reset_and_hazards.md R230) or a request
(30_encoding.md R60). -/
inductive Input where
  | reset
  | request (r : Request)
deriving DecidableEq, Repr

/-- Why a step could end in a fault. It has no constructor: every request ends in a response, an error being a
response (60_exceptions.md R207), so no step of this hardware faults. DEDUCED, log entry 6. -/
inductive Fault where
deriving DecidableEq, Repr

/-- Why a step could be refused. -/
inductive Refusal where
  /-- Raised by `exec` for an instruction that has no meaning yet, by its mnemonic; safe. No arm raises it. -/
  | notModelled (mnemonic : String)
deriving DecidableEq, Repr

/-- The state. `sess` and `wait` are the whole architectural state (10_state.md R20). `cfg` is the configuration
(10_state.md R28; log entry 1). `inputs` and `responses` are the model's own record of the two ports of
30_encoding.md R60 (log entries 2 and 3). -/
structure State where
  /-- `SESS[s][k]`: 8 senders, 16 sockets (10_state.md R21). -/
  sess      : Vector (Vector SessSt 16) 8
  /-- `WAIT` (10_state.md R24). -/
  wait      : WaitReg
  /-- `TERM` and `NETCHG` (00_scope.md R6). -/
  cfg       : Config
  /-- What the host has still to present, next first. -/
  inputs    : List Input
  /-- What the block has answered, latest first. -/
  responses : List Response
deriving DecidableEq, Repr

/-- The session table with every cell Idle (10_state.md R29). -/
def emptySess : Vector (Vector SessSt 16) 8 :=
  Vector.replicate 8 (Vector.replicate 16 .idle)

/-- The machine right after reset (10_state.md R29, 70_reset_and_hazards.md R230): every cell Idle, `WAIT = 0`; the
configuration at the spec's default (log entry 1), nothing presented and nothing answered (log entries 2, 3). -/
def State.reset : State where
  sess      := emptySess
  wait      := { v := false, snd := 0, skt := 0 }
  cfg       := Config.specDefault
  inputs    := []
  responses := []

/-- What executing one request ends in. -/
abbrev Result := Host.Outcome State Fault Refusal

end Sys2Proof.Machine
end

