-- ==== Sys2Proof/Machine/Flags.lean ====
section
/-! DEFINITION. What the block gives in place of flags: the codes of the response's status fields and the primitives
that drive them (00_scope.md R9). The block has no flags that persist (10_state.md R26). -/

namespace Sys2Proof.Machine

/-- The `status` codes of 30_encoding.md R62. -/
def Status.code : Status → BitVec 2
  | .ok => 0
  | .err => 1
  | .pending => 2

/-- The `err` codes of 60_exceptions.md R200. -/
def ErrKind.code : ErrKind → BitVec 4
  | .protocolFraming => 1
  | .invalidEncoding => 2
  | .payloadTooLarge => 3
  | .protocolError => 4
  | .deviceError => 5
  | .networkChange => 6
  | .duplicateAck => 7
  | .timeout => 8
  | .invalidArgument => 9
  | .illegalOp => 10

/-- The `dsub` codes of 42_error_decoder.md R140. -/
def DevSub.code : DevSub → BitVec 3
  | .syntaxError => 1
  | .commandBufferFull => 2
  | .commandCanceled => 3
  | .invalidSocket => 4
  | .commandNotExecutable => 5
  | .unknownDeviceError => 6

/-- The `anomaly` codes of 60_exceptions.md R203. -/
def Anomaly.code : Anomaly → BitVec 2
  | .unexpectedCompletion => 1
  | .staleCompletionDiscarded => 2

/-- The `waitEnd` codes of 30_encoding.md R62. -/
def WaitEnd.code : WaitEnd → BitVec 2
  | .done => 1
  | .aborted => 2
  | .timeout => 3

/-- The `pkind` codes of 30_encoding.md R62, R79. -/
def ReplyKind.code : ReplyKind → BitVec 2
  | .data => 0
  | .ack => 1
  | .completion => 2

/-- The 2-bit code of a session cell (10_state.md R21). -/
def SessSt.code : SessSt → BitVec 2
  | .idle => 0
  | .outstanding => 1
  | .completed => 2

/-- `finish`: the request ends with status OK (00_scope.md R9). -/
def Response.finish (r : Response) : Response :=
  { r with status := Status.ok.code }

/-- `pend`: the request ends with status PENDING (00_scope.md R9). -/
def Response.pend (r : Response) : Response :=
  { r with status := Status.pending.code }

/-- `raise E`: status ERR and the error kind; the fields driven before it stay (60_exceptions.md R200). -/
def Response.raise (e : ErrKind) (r : Response) : Response :=
  { r with status := Status.err.code, err := e.code }

/-- `raise DeviceError(d)`: the error kind and its details (42_error_decoder.md R140). -/
def Response.raiseDevice (d : DevErr) (r : Response) : Response :=
  { r.raise .deviceError with dsub := d.sub.code, dcode := d.code, dskt := d.skt }

/-- `note A`: the anomaly field, no error (00_scope.md R9, 60_exceptions.md R203). -/
def Response.note (a : Anomaly) (r : Response) : Response :=
  { r with anomaly := a.code }

/-- `rsp.waitEnd <- e` (30_encoding.md R62). -/
def Response.endWait (e : WaitEnd) (r : Response) : Response :=
  { r with waitEnd := e.code }

/-- `rsp.obuf[0..n-1] <- l` and `rsp.olen <- n` for a sequence of `n` bytes; the places left are 0 (30_encoding.md R63). -/
def Response.driveBytes (l : List Byte) (r : Response) : Response :=
  { r with obuf := padTo16 l, olen := BitVec.ofNat 5 l.length }

end Sys2Proof.Machine
end

