-- ==== Sys2Proof/Machine/Ops.lean ====
section
/-! DEFINITION. The operations over the session table, the wait register and the ports that the meanings share. -/

namespace Sys2Proof.Machine

/-- `SESS[s][k]` (00_scope.md R9). -/
def State.cell (s : State) (snd : DevId) (skt : Socket) : SessSt :=
  (s.sess[snd.toNat]'snd.isLt)[skt.toNat]'skt.isLt

/-- `SESS[s][k] <- st` (00_scope.md R9). -/
def State.setCell (s : State) (snd : DevId) (skt : Socket) (st : SessSt) : State :=
  { s with sess := s.sess.set snd.toNat ((s.sess[snd.toNat]'snd.isLt).set skt.toNat st skt.isLt) snd.isLt }

/-- `WAIT.V <- 1; WAIT.SND <- s; WAIT.SKT <- k` (43_session.md R160). -/
def State.beginWait (s : State) (snd : DevId) (skt : Socket) : State :=
  { s with wait := { v := true, snd := snd, skt := skt } }

/-- `WAIT.V <- 0`; `SND` and `SKT` keep their values (10_state.md R24). -/
def State.clearWait (s : State) : State :=
  { s with wait := { s.wait with v := false } }

/-- Whether a wait for the key `(s, k)` is pending (43_session.md R152). -/
def State.awaits (s : State) (snd : DevId) (skt : Socket) : Bool :=
  s.wait.v && s.wait.snd == snd && s.wait.skt == skt

/-- The 8-bit form of `WAIT`: `V` in bit 0, `SND` in bits 3:1, `SKT` in bits 7:4 (10_state.md R24). -/
def WaitReg.bits (r : WaitReg) : BitVec 8 :=
  r.skt ++ r.snd ++ BitVec.ofBool r.v

/-- The wait register an 8-bit value stands for (10_state.md R24). -/
def WaitReg.ofBits (b : BitVec 8) : WaitReg where
  v   := b.getLsbD 0
  snd := b.extractLsb' 1 3
  skt := b.extractLsb' 4 4

/-- The block presents a response (30_encoding.md R60). -/
def State.respond (s : State) (r : Response) : State :=
  { s with responses := r :: s.responses }

/-- A request that ends with status OK. -/
def finish (r : Response) (s : State) : Result :=
  .next (s.respond r.finish)

/-- A request that ends with status PENDING. -/
def pend (r : Response) (s : State) : Result :=
  .next (s.respond r.pend)

/-- The end of a request that raised the error response `r`: the host gets the response, and `SESS` and `WAIT` are as
they were (60_exceptions.md R206, R207). This is what taking an exception is on this hardware: control goes nowhere,
nothing is saved, and there is no return from it. -/
def fail (r : Response) (s : State) : Result :=
  .next (s.respond r)

/-- `raise E` where no more than the kind is recorded (60_exceptions.md R200, R202); `r` holds the fields driven before. -/
def raise (e : ErrKind) (r : Response) (s : State) : Result :=
  fail (r.raise e) s

/-- The end of a SACK, SCMP or RECV that raised the error response `r`: a pending wait is aborted, `SESS` is as before
the request (43_session.md R153, 60_exceptions.md R206). -/
def failSession (r : Response) (s : State) : Result :=
  if s.wait.v then fail (r.endWait .aborted) s.clearWait else fail r s

/-- The reset input: `SESS` and `WAIT` as 10_state.md R29 says (70_reset_and_hazards.md R230). The configuration stays
(R232: it is fixed before reset), and so do the host's later inputs and the responses already given (log entry 2). -/
def State.assertReset (s : State) : State :=
  { s with sess := emptySess, wait := { v := false, snd := 0, skt := 0 } }

/-- What the block finds at its request port. -/
inductive Arrival where
  /-- Nothing is presented: the block waits for the host (20_memory.md R48, log entry 4). -/
  | nothing
  /-- The reset input, and the state with that input taken. -/
  | reset (s : State)
  /-- A request, and the state with that request taken. -/
  | request (r : Request) (s : State)

/-- The block takes the next input the host presents; requests come one at a time, in order (20_memory.md R49). -/
def State.arrival (s : State) : Arrival :=
  match s.inputs with
  | [] => .nothing
  | .reset :: rest => .reset { s with inputs := rest }
  | .request r :: rest => .request r { s with inputs := rest }

end Sys2Proof.Machine
end

