-- ==== Sys2Proof/Machine/Illegal.lean ====
section
/-! DEFINITION. The three op codes that spell no operation (30_encoding.md R66). -/

namespace Sys2Proof.Machine

/-- op 0x0 (R66): IllegalOp, no state change. -/
def execIllegal0 (s : State) : Result := raise .illegalOp .undriven s

/-- op 0xE (R66): IllegalOp, no state change. -/
def execIllegalE (s : State) : Result := raise .illegalOp .undriven s

/-- op 0xF (R66): IllegalOp, no state change. -/
def execIllegalF (s : State) : Result := raise .illegalOp .undriven s

end Sys2Proof.Machine
end

