-- ==== Sys2Proof/Machine/Operands.lean ====
section
/-! DEFINITION. How operands are read and taken apart: nibbles, words, header and QQ fields (00_scope.md R7, R8;
20_memory.md R42; 30_encoding.md R67 to R73, R79). -/

namespace Sys2Proof.Machine

/-- The high nibble `b[7:4]` of a byte. -/
def hiNibble (b : Byte) : BitVec 4 := b.extractLsb' 4 4

/-- The low nibble `b[3:0]` of a byte. -/
def loNibble (b : Byte) : BitVec 4 := b.extractLsb' 0 4

/-- A word's wire form: four bytes, one nibble in the low bits of each, most significant nibble first
(20_memory.md R42, 30_encoding.md R73). -/
def nibbleBytes (v : Word) : List Byte :=
  [(v.extractLsb' 12 4).zeroExtend 8, (v.extractLsb' 8 4).zeroExtend 8,
   (v.extractLsb' 4 4).zeroExtend 8, (v.extractLsb' 0 4).zeroExtend 8]

/-- The word DECW reads from four bytes: `{b0[3:0], b1[3:0], b2[3:0], b3[3:0]}`, none where a byte has a nonzero high
nibble (40_integer_codec.md R102). -/
def wordOfNibbles (b0 b1 b2 b3 : Byte) : Option Word :=
  if hiNibble b0 ≠ 0 ∨ hiNibble b1 ≠ 0 ∨ hiNibble b2 ≠ 0 ∨ hiNibble b3 ≠ 0 then none
  else some (loNibble b0 ++ loNibble b1 ++ loNibble b2 ++ loNibble b3)

/-- An operand taken as `i16`: two's complement (30_encoding.md R67). -/
def asI16 (a : Word) : Int := a.toInt

/-- An operand taken as `u16` (30_encoding.md R67). -/
def asU16 (a : Word) : Nat := a.toNat

/-- The word ENCS transmits for the signed value `v`: `((-v) - 1) XOR 0xFFFF` for a negative `v`, else `v`
(40_integer_codec.md R104). -/
def signedWord (v : Int) : Word :=
  if v < 0 then BitVec.ofInt 16 (-v - 1) ^^^ 0xFFFF else BitVec.ofInt 16 v

/-- The signed value DECS recovers from a word: `-(w XOR 0xFFFF) - 1` when `w[15] = 1`, else `w`
(40_integer_codec.md R107; 90_conflicts.md C2). -/
def signedValue (w : Word) : Int :=
  if w.getLsbD 15 then -((w ^^^ 0xFFFF).toNat : Int) - 1 else (w.toNat : Int)

/-- Byte `i` of a frame or payload. A request's buffer holds every byte below its length (30_encoding.md R61), and no
meaning reads another, so the 0 given elsewhere is never seen (log entry 7). -/
def frameByte (f : Buffer) (i : Nat) : Byte := f.bytes.getD i 0

/-- The length `n` of a frame or payload: the request's `len` (00_scope.md R8). -/
def frameLen (f : Buffer) : Nat := f.len.toNat

/-- `CTRL_ID`, the controller's own sender id (00_scope.md R6). -/
def ctrlId : DevId := 0

/-- The header of an outgoing frame: `0x80 | (CTRL_ID << 4) | (bc = 1 ? 0x08 : zext_8(rcpt))` (41_frame_codec.md R120). -/
def header (bc : Bool) (rcpt : DevId) : Byte :=
  0x80 ||| (ctrlId.zeroExtend 8 <<< 4) ||| (if bc then 0x08 else rcpt.zeroExtend 8)

/-- Header bits 6:4, the sender id (30_encoding.md R70). -/
def hdrSender (h : Byte) : DevId := h.extractLsb' 4 3

/-- Header bit 3, the broadcast flag (30_encoding.md R70). -/
def hdrBroadcast (h : Byte) : Bool := h.getLsbD 3

/-- Header bits 2:0, the recipient id (30_encoding.md R70). -/
def hdrRecipient (h : Byte) : DevId := h.extractLsb' 0 3

/-- QQ bits 7:4, the message type (30_encoding.md R71). -/
def qqType (q : Byte) : BitVec 4 := hiNibble q

/-- QQ bits 3:0, the socket (30_encoding.md R71). -/
def qqSocket (q : Byte) : Socket := loNibble q

/-- Message type 4, an ACK (30_encoding.md R72). -/
def typeAck : BitVec 4 := 4

/-- Message type 5, a Completion (30_encoding.md R72). -/
def typeCompletion : BitVec 4 := 5

/-- Message type 6, an Error (30_encoding.md R72). -/
def typeError : BitVec 4 := 6

/-- The kind of a parsed reply of message type `t` (30_encoding.md R79). -/
def replyKind (t : BitVec 4) : ReplyKind :=
  if t = typeAck then .ack else if t = typeCompletion then .completion else .data

end Sys2Proof.Machine
end

