-- ==== Sys2Proof/Machine/IntegerCodec.lean ====
section
/-! DEFINITION. ENCW, DECW, ENCS, DECS (40_integer_codec.md). -/

namespace Sys2Proof.Machine

/-- ENCW (R100): the four nibble bytes of the word. -/
def execEncw (a : Word) (s : State) : Result :=
  finish (Response.driveBytes (nibbleBytes a) .undriven) s

/-- DECW (R102): the word of four nibble bytes, or InvalidEncoding. -/
def execDecw (b0 b1 b2 b3 : Byte) (s : State) : Result :=
  match wordOfNibbles b0 b1 b2 b3 with
  | none => raise .invalidEncoding .undriven s
  | some w => finish { Response.undriven with w := w } s

/-- ENCS (R104, R106): the magnitude limit first, then the four nibble bytes of the signed word. -/
def execEncs (a lim : Word) (s : State) : Result :=
  if (asI16 a).natAbs > asU16 lim then raise .invalidArgument .undriven s
  else finish (Response.driveBytes (nibbleBytes (signedWord (asI16 a))) .undriven) s

/-- DECS (R107, R109): the signed value of the word DECW reads, cut to the 16-bit port, or InvalidEncoding. -/
def execDecs (b0 b1 b2 b3 : Byte) (s : State) : Result :=
  match wordOfNibbles b0 b1 b2 b3 with
  | none => raise .invalidEncoding .undriven s
  | some w => finish { Response.undriven with w := BitVec.ofInt 16 (signedValue w) } s

end Sys2Proof.Machine
end

