-- ==== Sys2Proof/Machine/ErrorDecoder.lean ====
section
/-! DEFINITION. The error decoder and ERRD (42_error_decoder.md). -/

namespace Sys2Proof.Machine

/-- `errdecode(k, c)`: the rows of R142, the first that matches (R143). -/
def errdecode (skt : Socket) (code : Byte) : DevErr where
  sub :=
    if code = 0x02 ∧ skt = 0#4 then .syntaxError
    else if code = 0x03 ∧ skt = 0#4 then .commandBufferFull
    else if code = 0x04 then .commandCanceled
    else if code = 0x05 then .invalidSocket
    else if code = 0x41 then .commandNotExecutable
    else .unknownDeviceError
  code := code
  skt  := skt

/-- ERRD (R141, R144): always a DeviceError; it ends no wait. -/
def execErrd (skt : Socket) (code : Byte) (s : State) : Result :=
  fail (Response.raiseDevice (errdecode skt code) .undriven) s

end Sys2Proof.Machine
end

