-- ==== Sys2Proof/Machine/FrameCodec.lean ====
section
/-! DEFINITION. ENCF, DECF and the frame decoder RECV shares (41_frame_codec.md). -/

namespace Sys2Proof.Machine

/-- The frame ENCF builds: header, payload, `TERM` (R121). -/
def buildFrame (cfg : Config) (bc : Bool) (rcpt : DevId) (payload : List Byte) : List Byte :=
  header bc rcpt :: payload ++ [cfg.term]

/-- ENCF (R121, R122): the payload length is its only check. -/
def execEncf (bc : Bool) (rcpt : DevId) (p : Buffer) (s : State) : Result :=
  if frameLen p < 1 ∨ frameLen p > 14 then raise .payloadTooLarge .undriven s
  else finish (Response.driveBytes (buildFrame s.cfg bc rcpt p.bytes) .undriven) s

/-- The header and QQ fields DECF drives once the framing checks pass (R128). -/
def parsedFields (f : Buffer) : Response where
  hv    := true
  psnd  := hdrSender (frameByte f 0)
  pbc   := hdrBroadcast (frameByte f 0)
  prcpt := hdrRecipient (frameByte f 0)
  ptype := qqType (frameByte f 1)
  pskt  := qqSocket (frameByte f 1)

/-- The payload of a parsed reply, `f[1..n-2]` (R129). -/
def replyPayload (f : Buffer) : List Byte :=
  (f.bytes.drop 1).take (frameLen f - 2)

/-- DECF's checks and fields, in the order of R123: `error r` where it raises, `r` being the response with that error;
`ok r` for a parsed reply, `r` being the fields driven before `finish`. -/
def decodeFrame (cfg : Config) (f : Buffer) : Except Response Response :=
  if frameLen f < 3 ∨ frameLen f > 16 then .error (Response.raise .protocolFraming .undriven)
  else if frameByte f (frameLen f - 1) ≠ cfg.term then .error (Response.raise .protocolFraming .undriven)
  else if frameLen f = 3 ∧ frameByte f 1 = cfg.netchg then .error ((parsedFields f).raise .networkChange)
  else if qqType (frameByte f 1) = typeError then
    if frameLen f ≠ 4 then .error ((parsedFields f).raise .protocolError)
    else .error ((parsedFields f).raiseDevice (errdecode (qqSocket (frameByte f 1)) (frameByte f 2)))
  else .ok { (parsedFields f).driveBytes (replyPayload f) with
             pkind := (replyKind (qqType (frameByte f 1))).code }

/-- DECF (R123, R131): the parsed reply or its error; no session update, and no wait is ended. -/
def execDecf (f : Buffer) (s : State) : Result :=
  match decodeFrame s.cfg f with
  | .error r => fail r s
  | .ok r => finish r s

end Sys2Proof.Machine
end

