-- ==== Sys2Proof/Machine/Session.lean ====
section
/-! DEFINITION. The session update, SACK, SCMP and RECV (43_session.md sections 1 and 2). -/

namespace Sys2Proof.Machine

/-- A key moves from Outstanding to Completed; where it is the awaited key it is consumed in the same step and the wait
ends (R152). -/
def completeKey (snd : DevId) (skt : Socket) (r : Response) (s : State) : Result :=
  if s.awaits snd skt then finish (r.endWait .done) (s.setCell snd skt .idle).clearWait
  else finish r (s.setCell snd skt .completed)

/-- `update(ev, s, k)` and the end of the request that performs it: the table of R150 by event and by `SESS[s][k]`, with
R151 for socket 0, R152 for a completed key and R153 for DuplicateAck. `r` holds the fields driven before. -/
def sessionUpdate (ev : Event) (snd : DevId) (skt : Socket) (r : Response) (s : State) : Result :=
  if skt = 0#4 then finish r s
  else
    match ev, s.cell snd skt with
    | .ack, .idle => finish r (s.setCell snd skt .outstanding)
    | .ack, .outstanding => failSession (r.raise .duplicateAck) s
    | .ack, .completed => finish (r.note .staleCompletionDiscarded) (s.setCell snd skt .outstanding)
    | .cmpl, .idle => finish (r.note .unexpectedCompletion) s
    | .cmpl, .outstanding => completeKey snd skt r s
    | .cmpl, .completed => finish (r.note .unexpectedCompletion) s

/-- SACK (R154). -/
def execSack (snd : DevId) (skt : Socket) (s : State) : Result :=
  sessionUpdate .ack snd skt .undriven s

/-- SCMP (R155). -/
def execScmp (snd : DevId) (skt : Socket) (s : State) : Result :=
  sessionUpdate .cmpl snd skt .undriven s

/-- The routing of a parsed reply `r` (R157): by its message type, to its sender's socket. -/
def routeReply (r : Response) (s : State) : Result :=
  if r.ptype = typeAck then sessionUpdate .ack r.psnd r.pskt r s
  else if r.ptype = typeCompletion then sessionUpdate .cmpl r.psnd r.pskt r s
  else finish r s

/-- RECV (R156, R158): DECF; its errors end a pending wait (R153), a parsed reply is routed. -/
def execRecv (f : Buffer) (s : State) : Result :=
  match decodeFrame s.cfg f with
  | .error r => failSession r s
  | .ok r => routeReply r s

end Sys2Proof.Machine
end

