-- ==== Sys2Proof/Machine/Wait.lean ====
section
/-! DEFINITION. The completion wait: WSTART, WACK and WTMO (43_session.md section 3). -/

namespace Sys2Proof.Machine

/-- The start of a wait on a key (R160): a pending wait first (R162), then socket 0 or an Idle key (R161), then a
Completed key, consumed at once (R163), and else the key is Outstanding and the wait is pending. -/
def startWait (snd : DevId) (skt : Socket) (s : State) : Result :=
  if s.wait.v then raise .invalidArgument .undriven s
  else if skt = 0#4 then raise .invalidArgument .undriven s
  else
    match s.cell snd skt with
    | .idle => raise .invalidArgument .undriven s
    | .completed => finish (Response.endWait .done .undriven) (s.setCell snd skt .idle)
    | .outstanding => pend .undriven (s.beginWait snd skt)

/-- WSTART (R160). -/
def execWstart (snd : DevId) (skt : Socket) (s : State) : Result :=
  startWait snd skt s

/-- WACK (R166, R167): the frame's length and message type, then WSTART on its key. -/
def execWack (f : Buffer) (s : State) : Result :=
  if frameLen f ≠ 3 ∨ qqType (frameByte f 1) ≠ typeAck then raise .invalidArgument .undriven s
  else startWait (hdrSender (frameByte f 0)) (qqSocket (frameByte f 1)) s

/-- WTMO (R170): the pending wait ends with Timeout, its key left as it is; InvalidArgument where none is pending. -/
def execWtmo (s : State) : Result :=
  if s.wait.v then raise .timeout (Response.endWait .timeout .undriven) s.clearWait
  else raise .invalidArgument .undriven s

end Sys2Proof.Machine
end

