-- ==== Sys2Proof/Machine/Dispatch.lean ====
section
/-! DEFINITION. One arm for each operation (30_encoding.md R65). -/

namespace Sys2Proof.Machine

def exec (i : Instr) (s : State) : Host.Outcome State Fault Refusal :=
  match i with
  | .encw a => Sys2Proof.Machine.execEncw a s
  | .decw b0 b1 b2 b3 => Sys2Proof.Machine.execDecw b0 b1 b2 b3 s
  | .encs a lim => Sys2Proof.Machine.execEncs a lim s
  | .decs b0 b1 b2 b3 => Sys2Proof.Machine.execDecs b0 b1 b2 b3 s
  | .encf bc rcpt p => Sys2Proof.Machine.execEncf bc rcpt p s
  | .decf f => Sys2Proof.Machine.execDecf f s
  | .errd skt code => Sys2Proof.Machine.execErrd skt code s
  | .sack snd skt => Sys2Proof.Machine.execSack snd skt s
  | .scmp snd skt => Sys2Proof.Machine.execScmp snd skt s
  | .recv f => Sys2Proof.Machine.execRecv f s
  | .wstart snd skt => Sys2Proof.Machine.execWstart snd skt s
  | .wack f => Sys2Proof.Machine.execWack f s
  | .wtmo => Sys2Proof.Machine.execWtmo s
  | .illegal0 => Sys2Proof.Machine.execIllegal0 s
  | .illegalE => Sys2Proof.Machine.execIllegalE s
  | .illegalF => Sys2Proof.Machine.execIllegalF s

end Sys2Proof.Machine
end

