-- ==== Sys2Proof/Machine/Step.lean ====
section
/-! DEFINITION. One step of the block: it takes what the host presents next (20_memory.md R46, R49). -/

namespace Sys2Proof.Machine

/-- One step. A request is decoded and performed, and nothing else is done around it; the reset input resets; with
nothing presented the block waits, unchanged (20_memory.md R48; log entry 4). -/
def step (s : State) : Host.Outcome State Fault Refusal :=
  match s.arrival with
  | .nothing => .next s
  | .reset t => .next t.assertReset
  | .request r t => exec (decode r) t

/-- `s` with the request of a table word presented next, before what the host was going to present (log entry 5). -/
def State.withFetchWord (s : State) (nbits w : Nat) : State :=
  { s with inputs := .request (tableRequest nbits w) :: s.inputs }

end Sys2Proof.Machine
end

