-- ==== Sys2Proof/Machine/HostCalls.lean ====
section
/-! DEFINITION. The host's three calls as sequences of requests (30_encoding.md R68). They are the host's, over the
block: `exec` performs each request. Log entry 10. -/

namespace Sys2Proof.Machine

/-- The response the host reads after a request: the latest one (30_encoding.md R60). -/
def State.lastResponse (s : State) : Response := s.responses.headD .undriven

/-- What the host does next while a wait is pending (30_encoding.md R68): it reads a frame, or its timeout elapses. The
order is the host's own (93_implementation_defined.md I7). -/
inductive WaitEvent where
  | frame (f : Buffer)
  | timeout
deriving DecidableEq, Repr

/-- The request the host makes of an event: RECV on each frame it reads, WTMO if its timeout elapses (R68). -/
def WaitEvent.request : WaitEvent → Instr
  | .frame f => .recv f
  | .timeout => .wtmo

/-- The host's loop while no response has reported `waitEnd != 0` (R68). With no more events the wait stays pending
(70_reset_and_hazards.md R238). -/
def awaitEnd : List WaitEvent → State → Result
  | [], s => .next s
  | e :: es, s =>
    match exec e.request s with
    | .next t => if t.lastResponse.waitEnd = 0 then awaitEnd es t else .next t
    | .fault r => .fault r
    | .refused r => .refused r

/-- A call that starts a wait with `start` and, while its response is PENDING, goes through the loop (R68). -/
def waitCall (start : Instr) (events : List WaitEvent) (s : State) : Result :=
  match exec start s with
  | .next t => if t.lastResponse.status = Status.pending.code then awaitEnd events t else .next t
  | .fault r => .fault r
  | .refused r => .refused r

/-- `consumeCompletion(sender, socket, timeout)` (R68). -/
def consumeCompletion (snd : DevId) (skt : Socket) (events : List WaitEvent) (s : State) : Result :=
  waitCall (.wstart snd skt) events s

/-- `waitForCompletion(ackReply, timeout)` (R68). -/
def waitForCompletion (ackReply : Buffer) (events : List WaitEvent) (s : State) : Result :=
  waitCall (.wack ackReply) events s

/-- `exchange(recipient, payload)`: ENCF, the host's transport (out of scope, 00_scope.md R4), then RECV on the bytes
read (R68). Where ENCF fails there is no frame to write and the call ends with its error (log entry 10). -/
def exchange (bc : Bool) (rcpt : DevId) (payload received : Buffer) (s : State) : Result :=
  match exec (.encf bc rcpt payload) s with
  | .next t => if t.lastResponse.status = Status.ok.code then exec (.recv received) t else .next t
  | .fault r => .fault r
  | .refused r => .refused r

end Sys2Proof.Machine
end

