-- ==== Sys2Proof/Safety.lean ====
section
/-! DEFINITION. The terms claims are stated in: the constraint on the configuration, the invariants of the state, the
form of a response, and the host's duties on buffers. -/

namespace Sys2Proof

/-- The constraint `TERM[7:4] != 0` (00_scope.md R6). A premise of a claim that needs it; no meaning checks it. -/
abbrev Config.legal (c : Config) : Prop := c.term.extractLsb' 4 4 ≠ 0

/-- H3 of 70_reset_and_hazards.md R233: a buffer that came from the host's read, "up to 16 bytes, stopping at the
terminator" (20_memory.md R52): its only `TERM` is at its last index. -/
abbrev Buffer.asRead (c : Config) (f : Buffer) : Prop :=
  f.wf = true ∧ 1 ≤ f.len.toNat ∧ f.len.toNat ≤ 16 ∧ c.term ∉ f.bytes.dropLast ∧ f.bytes.getLast? = some c.term

/-- H7 of 70_reset_and_hazards.md R233: a payload that keeps `TERM` out (R236). -/
abbrev Buffer.termFree (c : Config) (p : Buffer) : Prop := c.term ∉ p.bytes

/-- Two requests that agree on `op` and on every field that 30_encoding.md R65 lists for it; of `buf`, on the bytes that
R61 says the operation may read. -/
def Request.sameRead (r r' : Request) : Prop :=
  r.op = r'.op ∧
  match r.op.toNat with
  | 0x1 => r.a = r'.a
  | 0x2 => ∀ i : Fin 4, r.buf[i] = r'.buf[i]
  | 0x3 => r.a = r'.a ∧ r.lim = r'.lim
  | 0x4 => ∀ i : Fin 4, r.buf[i] = r'.buf[i]
  | 0x5 => r.bc = r'.bc ∧ r.rcpt = r'.rcpt ∧ r.len = r'.len ∧
      (r.len.toNat ≤ 16 → ∀ i : Fin 16, i.val < r.len.toNat → r.buf[i] = r'.buf[i])
  | 0x6 => r.len = r'.len ∧ (r.len.toNat ≤ 16 → ∀ i : Fin 16, i.val < r.len.toNat → r.buf[i] = r'.buf[i])
  | 0x7 => r.skt = r'.skt ∧ r.code = r'.code
  | 0x8 => r.snd = r'.snd ∧ r.skt = r'.skt
  | 0x9 => r.snd = r'.snd ∧ r.skt = r'.skt
  | 0xA => r.len = r'.len ∧ (r.len.toNat ≤ 16 → ∀ i : Fin 16, i.val < r.len.toNat → r.buf[i] = r'.buf[i])
  | 0xB => r.snd = r'.snd ∧ r.skt = r'.skt
  | 0xC => r.len = r'.len ∧ (r.len.toNat ≤ 16 → ∀ i : Fin 16, i.val < r.len.toNat → r.buf[i] = r'.buf[i])
  | _   => True

/-- The pure operations: those whose state column is "pure" in 30_encoding.md R65, and the illegal op codes. -/
def Instr.isPure : Instr → Bool
  | .encw _ => true
  | .decw _ _ _ _ => true
  | .encs _ _ => true
  | .decs _ _ _ _ => true
  | .encf _ _ _ => true
  | .decf _ => true
  | .errd _ _ => true
  | .sack _ _ => false
  | .scmp _ _ => false
  | .recv _ => false
  | .wstart _ _ => false
  | .wack _ => false
  | .wtmo => false
  | .illegal0 => true
  | .illegalE => true
  | .illegalF => true

/-- The key whose session cell an operation may write: the operands of SACK, SCMP and WSTART (43_session.md R154, R155,
R160), the sender and socket fields of the frame of RECV and WACK (R157, R166); none for every other operation. -/
def Instr.sessionKey : Instr → Option (DevId × Socket)
  | .encw _ => none
  | .decw _ _ _ _ => none
  | .encs _ _ => none
  | .decs _ _ _ _ => none
  | .encf _ _ _ => none
  | .decf _ => none
  | .errd _ _ => none
  | .sack snd skt => some (snd, skt)
  | .scmp snd skt => some (snd, skt)
  | .recv f => some ((f.bytes.getD 0 0).extractLsb' 4 3, (f.bytes.getD 1 0).extractLsb' 0 4)
  | .wstart snd skt => some (snd, skt)
  | .wack f => some ((f.bytes.getD 0 0).extractLsb' 4 3, (f.bytes.getD 1 0).extractLsb' 0 4)
  | .wtmo => none
  | .illegal0 => none
  | .illegalE => none
  | .illegalF => none

/-- SACK, SCMP and RECV: the operations whose errors end a pending wait (43_session.md R153). -/
def Instr.feedsEvents : Instr → Bool
  | .encw _ => false
  | .decw _ _ _ _ => false
  | .encs _ _ => false
  | .decs _ _ _ _ => false
  | .encf _ _ _ => false
  | .decf _ => false
  | .errd _ _ => false
  | .sack _ _ => true
  | .scmp _ _ => true
  | .recv _ => true
  | .wstart _ _ => false
  | .wack _ => false
  | .wtmo => false
  | .illegal0 => false
  | .illegalE => false
  | .illegalF => false

/-- WSTART and WACK: the operations that start a wait (43_session.md R160, R166). -/
def Instr.startsWait : Instr → Bool
  | .encw _ => false
  | .decw _ _ _ _ => false
  | .encs _ _ => false
  | .decs _ _ _ _ => false
  | .encf _ _ _ => false
  | .decf _ => false
  | .errd _ _ => false
  | .sack _ _ => false
  | .scmp _ _ => false
  | .recv _ => false
  | .wstart _ _ => true
  | .wack _ => true
  | .wtmo => false
  | .illegal0 => false
  | .illegalE => false
  | .illegalF => false

namespace Machine

/-- A frame that passes DECF's framing checks: 3 to 16 bytes, the last of them `TERM` (41_frame_codec.md R124, R126). -/
abbrev Framed (c : Config) (f : Buffer) : Prop :=
  3 ≤ f.len.toNat ∧ f.len.toNat ≤ 16 ∧ f.bytes.getD (f.len.toNat - 1) 0 = c.term

/-- A network-change frame: 3 bytes, byte 1 equal to `NETCHG` (30_encoding.md R76). -/
abbrev IsNetChange (c : Config) (f : Buffer) : Prop :=
  f.len.toNat = 3 ∧ f.bytes.getD 1 0 = c.netchg

/-- The header and QQ fields of a frame, bit by bit as 41_frame_codec.md R128 slices them, and no other field. -/
def Response.headerOf (f : Buffer) : Response where
  hv    := true
  psnd  := (f.bytes.getD 0 0).extractLsb' 4 3
  pbc   := (f.bytes.getD 0 0).getLsbD 3
  prcpt := (f.bytes.getD 0 0).extractLsb' 0 3
  ptype := (f.bytes.getD 1 0).extractLsb' 4 4
  pskt  := (f.bytes.getD 1 0).extractLsb' 0 4

/-- A response that carries the header and QQ fields of a frame. -/
abbrev Response.HasHeaderOf (r : Response) (f : Buffer) : Prop :=
  r.hv = true ∧ r.psnd = (f.bytes.getD 0 0).extractLsb' 4 3 ∧ r.pbc = (f.bytes.getD 0 0).getLsbD 3 ∧
  r.prcpt = (f.bytes.getD 0 0).extractLsb' 0 3 ∧ r.ptype = (f.bytes.getD 1 0).extractLsb' 4 4 ∧
  r.pskt = (f.bytes.getD 1 0).extractLsb' 0 4

/-- The `dsub` code of the first row of 42_error_decoder.md R142 that matches socket `k` and code `c`. -/
def deviceErrorRow (k : Socket) (c : Byte) : BitVec 3 :=
  match c.toNat, k.toNat with
  | 0x02, 0 => 1
  | 0x03, 0 => 2
  | 0x04, _ => 3
  | 0x05, _ => 4
  | 0x41, _ => 5
  | _, _ => 6

/-- The operation `i` feeds event `ev` to the key `(snd, skt)`: SACK, SCMP, or RECV of a frame that parses as a reply of
that event's message type from that sender and socket (43_session.md R154, R155, R157). -/
def Feeds (c : Config) (i : Instr) (ev : Event) (snd : DevId) (skt : Socket) : Prop :=
  (i = .sack snd skt ∧ ev = .ack) ∨ (i = .scmp snd skt ∧ ev = .cmpl) ∨
  ∃ f, i = .recv f ∧ Framed c f ∧ ¬IsNetChange c f ∧ snd = (f.bytes.getD 0 0).extractLsb' 4 3 ∧
    skt = (f.bytes.getD 1 0).extractLsb' 0 4 ∧
    (f.bytes.getD 1 0).extractLsb' 4 4 = (match ev with | .ack => (4 : BitVec 4) | .cmpl => 5)

/-- What every request leaves alone, and its one response: the configuration, what the host has still to present, and
the responses given before are as they were, and `r` is the response (30_encoding.md R60). -/
abbrev Answered (s t : State) (r : Response) : Prop :=
  t.cfg = s.cfg ∧ t.inputs = s.inputs ∧ t.responses = r :: s.responses

/-- Every session cell but `(snd, skt)` is as it was. -/
abbrev OtherCellsKept (s t : State) (snd : DevId) (skt : Socket) : Prop :=
  ∀ (a : DevId) (b : Socket), (a, b) ≠ (snd, skt) → t.cell a b = s.cell a b

/-- The invariant of 10_state.md R30: (I1) socket 0 is Idle; (I3) an awaited key has a nonzero socket and is
Outstanding. (I2), no cell holds the value 3, holds by the type of a cell. -/
structure State.SessionInv (s : State) : Prop where
  socketZeroIdle : ∀ snd : DevId, s.cell snd 0 = .idle
  awaitedOutstanding : s.wait.v = true → s.wait.skt ≠ 0 ∧ s.cell s.wait.snd s.wait.skt = .outstanding

/-- The form of a response (30_encoding.md R62, R63; 60_exceptions.md R200, R203; 42_error_decoder.md R140): the codes
are those the spec lists, an error kind stands exactly beside status ERR, the details of a device error stand exactly
beside that kind, an anomaly stands beside status OK, and what is not driven is 0. -/
structure Response.WellFormed (r : Response) : Prop where
  statusListed : r.status ≠ 3
  errListed : r.err.toNat ≤ 10
  errIffStatus : r.err ≠ 0 ↔ r.status = 1
  deviceDetails : r.err = 5 → 1 ≤ r.dsub.toNat ∧ r.dsub.toNat ≤ 6
  noDeviceDetails : r.err ≠ 5 → r.dsub = 0 ∧ r.dcode = 0 ∧ r.dskt = 0
  anomalyListed : r.anomaly ≠ 3
  anomalyOk : r.anomaly ≠ 0 → r.status = 0
  kindListed : r.pkind ≠ 3
  lengthInPort : r.olen.toNat ≤ 16
  unusedBytesZero : ∀ i : Fin 16, r.olen.toNat ≤ i.val → r.obuf[i] = 0
  noHeader : r.hv = false →
    r.psnd = 0 ∧ r.pbc = false ∧ r.prcpt = 0 ∧ r.ptype = 0 ∧ r.pskt = 0 ∧ r.pkind = 0

/-- Every response the block has given has the form of `Response.WellFormed`. -/
abbrev State.ResponsesWellFormed (s : State) : Prop := ∀ r ∈ s.responses, r.WellFormed

end Machine

end Sys2Proof
end

