-- ==== Sys2Proof/Certificates/Slice0/Obligations.lean ====
section
/-! DEFINITION. The statements for the provers. Response fields stand as the numbers the host reads at the port
(30_encoding.md R62; 60_exceptions.md R200; 42_error_decoder.md R140); a field that is not named is 0 (R63). -/

open Sys2Proof Sys2Proof.Machine

/-! ### Encoding and the step -/

/-- Decoding the request bundle of a well-formed instruction gives it back, with every operand (30_encoding.md R61,
R65, R68). -/
def Obligations.DecodeOfEncodeIsIdentity : Prop :=
  ∀ i : Instr, i.wf = true → decode (encode i) = i

/-- Every request bundle decodes to a well-formed instruction: of `buf` it holds the bytes R61 makes readable. -/
def Obligations.EveryRequestDecodesWellFormed : Prop :=
  ∀ r : Request, (decode r).wf = true

/-- 30_encoding.md R64: `op` alone selects the operation. -/
def Obligations.OpFieldAloneSelectsOperation : Prop :=
  ∀ r : Request, (decode r).opcode = r.op

/-- 30_encoding.md R61, R65: two requests that agree on the fields listed for their operation, and on `buf[0..len-1]`
where it reads a byte sequence, are the same operation. -/
def Obligations.UnlistedRequestFieldsAreIgnored : Prop :=
  ∀ r r' : Request, r.sameRead r' → decode r = decode r'

/-- Requests written out from 95_test_vectors.md L3 (programs P1, P3, P2, P4) and S12 decode to the operations they
stand for. -/
def Obligations.WrittenRequestsDecode : Prop :=
  decode { op := 0x5, rcpt := 1, len := 4, buf := #v[0x01, 0x04, 0x07, 0x02, 0, 0, 0, 0, 0, 0, 0, 0, 0, 0, 0, 0] }
    = .encf false 1 { len := 4, bytes := [0x01, 0x04, 0x07, 0x02] } ∧
  decode { op := 0xA, len := 3, buf := #v[0x90, 0x41, 0xFF, 0, 0, 0, 0, 0, 0, 0, 0, 0, 0, 0, 0, 0] }
    = .recv { len := 3, bytes := [0x90, 0x41, 0xFF] } ∧
  decode { op := 0x3, a := 0xFA60, lim := 0x05A0 } = .encs 0xFA60 0x05A0 ∧
  decode { op := 0x8, snd := 3, skt := 2 } = .sack 3 2 ∧
  decode { op := 0xD } = .wtmo ∧
  decode { op := 0xE } = .illegalE

/-- A step performs the request presented next, decoded, and adds nothing around it; where a well-formed instruction's
request is presented the step is `exec` of it. With nothing presented the block waits unchanged: the model's reading of
20_memory.md R48 (log entry 4), and the ports are the model's (log entries 2, 3). -/
def Obligations.StepPerformsPresentedRequest : Prop :=
  ∀ s : State,
    (s.inputs = [] → step s = .next s) ∧
    (∀ (r : Request) (rest : List Input), s.inputs = .request r :: rest →
      step s = exec (decode r) { s with inputs := rest }) ∧
    (∀ (i : Instr) (rest : List Input), i.wf = true → s.inputs = .request (encode i) :: rest →
      step s = exec i { s with inputs := rest })

/-- 10_state.md R29: after the reset input, from any state, and in the reset state, every cell is Idle and every field
of `WAIT` is 0. -/
def Obligations.ResetLeavesEveryKeyIdle : Prop :=
  (∀ (s : State) (rest : List Input), s.inputs = .reset :: rest →
    ∃ t, step s = .next t ∧ (∀ snd skt, t.cell snd skt = .idle) ∧
      t.wait.v = false ∧ t.wait.snd = 0 ∧ t.wait.skt = 0) ∧
  (∀ snd skt, State.reset.cell snd skt = .idle) ∧
  State.reset.wait.v = false ∧ State.reset.wait.snd = 0 ∧ State.reset.wait.skt = 0

/-- The reset input keeps the configuration, the host's later inputs and the responses already given: the model's choice,
log entry 2 (R232 fixes the configuration before reset). -/
def Obligations.ResetInputKeepsConfigurationAndPorts : Prop :=
  ∀ (s t : State) (rest : List Input), s.inputs = .reset :: rest → step s = .next t →
    t.cfg = s.cfg ∧ t.inputs = rest ∧ t.responses = s.responses

/-! ### Integer nibble codec -/

/-- 40_integer_codec.md R100. -/
def Obligations.EncwGivesNibbleBytes : Prop :=
  ∀ (a : Word) (s : State), exec (.encw a) s = .next { s with responses :=
    { status := 0, olen := 4, obuf := #v[(a.extractLsb' 12 4).zeroExtend 8, (a.extractLsb' 8 4).zeroExtend 8,
        (a.extractLsb' 4 4).zeroExtend 8, (a.extractLsb' 0 4).zeroExtend 8, 0, 0, 0, 0, 0, 0, 0, 0, 0, 0, 0, 0] }
      :: s.responses }

/-- 40_integer_codec.md R101 (which the spec derives from R100 and 00_scope.md R6): no byte that ENCW or ENCS gives
exceeds 0x0F, so with `TERM[7:4] != 0` none is `TERM`. -/
def Obligations.EncodedWordBytesDifferFromTerm : Prop :=
  ∀ (i : Instr) (s t : State) (r : Response), s.cfg.legal → (∃ a, i = .encw a) ∨ (∃ a lim, i = .encs a lim) →
    exec i s = .next t → t.responses = r :: s.responses →
    ∀ k : Fin 16, k.val < r.olen.toNat → r.obuf[k].toNat ≤ 0x0F ∧ r.obuf[k] ≠ s.cfg.term

/-- 40_integer_codec.md R102. -/
def Obligations.DecwReassemblesOrRefuses : Prop :=
  ∀ (b0 b1 b2 b3 : Byte) (s : State),
    ((b0.extractLsb' 4 4 = 0 ∧ b1.extractLsb' 4 4 = 0 ∧ b2.extractLsb' 4 4 = 0 ∧ b3.extractLsb' 4 4 = 0) →
      exec (.decw b0 b1 b2 b3) s = .next { s with responses :=
        { status := 0, w := b0.extractLsb' 0 4 ++ b1.extractLsb' 0 4 ++ b2.extractLsb' 0 4 ++ b3.extractLsb' 0 4 }
          :: s.responses }) ∧
    (¬(b0.extractLsb' 4 4 = 0 ∧ b1.extractLsb' 4 4 = 0 ∧ b2.extractLsb' 4 4 = 0 ∧ b3.extractLsb' 4 4 = 0) →
      exec (.decw b0 b1 b2 b3) s = .next { s with responses := { status := 1, err := 2 } :: s.responses })

/-- 40_integer_codec.md R103 (which the spec derives): DECW of the bytes ENCW gave is OK with the word. -/
def Obligations.DecwInvertsEncw : Prop :=
  ∀ (u : Word) (s s' : State), ∃ r : Response,
    exec (.encw u) s = .next { s with responses := r :: s.responses } ∧
    exec (.decw r.obuf[0] r.obuf[1] r.obuf[2] r.obuf[3]) s'
      = .next { s' with responses := { status := 0, w := u } :: s'.responses }

/-- 40_integer_codec.md R104 and R106 (whose limit check is the spec's own choice, 92 D12): within the limit the bytes
of the transmitted word, over the limit InvalidArgument. -/
def Obligations.EncsTransmitsSignedWord : Prop :=
  ∀ (a lim : Word) (s : State),
    (a.toInt.natAbs ≤ lim.toNat → ∃ w : Word,
      (a.toInt < 0 → w = BitVec.ofInt 16 (-a.toInt - 1) ^^^ 0xFFFF) ∧
      (0 ≤ a.toInt → w = BitVec.ofInt 16 a.toInt) ∧
      exec (.encs a lim) s = .next { s with responses :=
        { status := 0, olen := 4, obuf := #v[(w.extractLsb' 12 4).zeroExtend 8, (w.extractLsb' 8 4).zeroExtend 8,
            (w.extractLsb' 4 4).zeroExtend 8, (w.extractLsb' 0 4).zeroExtend 8, 0, 0, 0, 0, 0, 0, 0, 0, 0, 0, 0, 0] }
          :: s.responses }) ∧
    (lim.toNat < a.toInt.natAbs →
      exec (.encs a lim) s = .next { s with responses := { status := 1, err := 9 } :: s.responses })

/-- 40_integer_codec.md R105 (which the spec derives from R104; 90_conflicts.md C1): the word ENCS transmits is the
two's complement of the value, so within the limit ENCS is ENCW. -/
def Obligations.EncsTransmitsTwosComplement : Prop :=
  ∀ (a lim : Word) (s : State), a.toInt.natAbs ≤ lim.toNat → exec (.encs a lim) s = exec (.encw a) s

/-- 40_integer_codec.md R107 and R109 (no limit: the spec's own choice, 92 D13), with the reading of 90_conflicts.md C2. -/
def Obligations.DecsRecoversSignedValue : Prop :=
  ∀ (b0 b1 b2 b3 : Byte) (s : State),
    ((b0.extractLsb' 4 4 = 0 ∧ b1.extractLsb' 4 4 = 0 ∧ b2.extractLsb' 4 4 = 0 ∧ b3.extractLsb' 4 4 = 0) →
      ∀ w : Word, w = b0.extractLsb' 0 4 ++ b1.extractLsb' 0 4 ++ b2.extractLsb' 0 4 ++ b3.extractLsb' 0 4 →
        ∃ v : Int, (w.getLsbD 15 = true → v = -((w ^^^ 0xFFFF).toNat : Int) - 1) ∧
          (w.getLsbD 15 = false → v = w.toNat) ∧
          exec (.decs b0 b1 b2 b3) s = .next { s with responses :=
            { status := 0, w := BitVec.ofInt 16 v } :: s.responses }) ∧
    (¬(b0.extractLsb' 4 4 = 0 ∧ b1.extractLsb' 4 4 = 0 ∧ b2.extractLsb' 4 4 = 0 ∧ b3.extractLsb' 4 4 = 0) →
      exec (.decs b0 b1 b2 b3) s = .next { s with responses := { status := 1, err := 2 } :: s.responses })

/-- 40_integer_codec.md R108 (which the spec derives from R107): DECS answers what DECW answers, bit for bit. -/
def Obligations.DecsAnswersAsDecw : Prop :=
  ∀ (b0 b1 b2 b3 : Byte) (s : State), exec (.decs b0 b1 b2 b3) s = exec (.decw b0 b1 b2 b3) s

/-- 40_integer_codec.md R110 (which the spec derives): DECS of the bytes of ENCS gives the signed value back. -/
def Obligations.DecsInvertsEncs : Prop :=
  ∀ (a lim : Word) (s s' : State), a.toInt.natAbs ≤ lim.toNat → ∃ r : Response,
    exec (.encs a lim) s = .next { s with responses := r :: s.responses } ∧
    ∃ w : Word, w.toInt = a.toInt ∧
      exec (.decs r.obuf[0] r.obuf[1] r.obuf[2] r.obuf[3]) s'
        = .next { s' with responses := { status := 0, w := w } :: s'.responses }

/-! ### Packet codec -/

/-- 41_frame_codec.md R120, R121: header, payload, terminator; PayloadTooLarge outside 1 to 14 bytes. No other check is
made (R122, the spec's own choice, 92 D11). -/
def Obligations.EncfBuildsFrame : Prop :=
  ∀ (bc : Bool) (rcpt : DevId) (p : Buffer) (s : State), p.wf = true →
    ((1 ≤ p.len.toNat ∧ p.len.toNat ≤ 14) → ∃ v : Vector Byte 16,
      v.toList = (0x80 ||| ((0 : Byte) <<< 4) ||| (if bc then 0x08 else rcpt.zeroExtend 8)) ::
        p.bytes ++ [s.cfg.term] ++ List.replicate (14 - p.len.toNat) 0 ∧
      exec (.encf bc rcpt p) s = .next { s with responses :=
        { status := 0, olen := p.len + 2, obuf := v } :: s.responses }) ∧
    ((p.len.toNat = 0 ∨ 14 < p.len.toNat) →
      exec (.encf bc rcpt p) s = .next { s with responses := { status := 1, err := 3 } :: s.responses })

/-- 70_reset_and_hazards.md R236, 20_memory.md R52: the frame of a payload that keeps `TERM` out, under a header that is
not `TERM`, is one that a terminator-stopped read takes whole. -/
def Obligations.TermFreePayloadGivesReadableFrame : Prop :=
  ∀ (bc : Bool) (rcpt : DevId) (p : Buffer) (s : State), p.wf = true → 1 ≤ p.len.toNat → p.len.toNat ≤ 14 →
    p.termFree s.cfg → (if bc then 0x88 else 0x80 ||| rcpt.zeroExtend 8) ≠ s.cfg.term →
    ∃ r : Response, exec (.encf bc rcpt p) s = .next { s with responses := r :: s.responses } ∧
      (Buffer.asRead s.cfg { len := r.olen, bytes := r.obuf.toList.take r.olen.toNat })

/-- 41_frame_codec.md R124, R125, R126: a buffer shorter than 3 or longer than 16 bytes, or whose last byte is not
`TERM`, fails with ProtocolFraming and drives nothing else. -/
def Obligations.DecfRefusesBadFraming : Prop :=
  ∀ (f : Buffer) (s : State),
    (f.len.toNat < 3 ∨ 16 < f.len.toNat ∨ f.bytes.getD (f.len.toNat - 1) 0 ≠ s.cfg.term) →
    exec (.decf f) s = .next { s with responses := { status := 1, err := 1 } :: s.responses }

/-- 41_frame_codec.md R128: once the framing checks pass the header and QQ fields are driven, for a reply and for an
error alike; before that none is (R125). -/
def Obligations.DecfDrivesHeaderOnceFramed : Prop :=
  ∀ (f : Buffer) (s : State), ∃ r : Response,
    exec (.decf f) s = .next { s with responses := r :: s.responses } ∧
    (Framed s.cfg f → r.HasHeaderOf f) ∧ (¬Framed s.cfg f → r.hv = false ∧ r.olen = 0)

/-- 41_frame_codec.md R130: a 3-byte frame whose byte 1 is `NETCHG` raises NetworkChange, whatever its message type. -/
def Obligations.DecfReportsNetworkChange : Prop :=
  ∀ (f : Buffer) (s : State), Framed s.cfg f → IsNetChange s.cfg f →
    exec (.decf f) s = .next { s with responses := { Response.headerOf f with status := 1, err := 6 } :: s.responses }

/-- 41_frame_codec.md R127: an error frame never gives a reply: DeviceError by the decoder's table where it has 4 bytes,
ProtocolError elsewhere. -/
def Obligations.DecfRaisesOnErrorFrames : Prop :=
  ∀ (f : Buffer) (s : State), Framed s.cfg f → ¬IsNetChange s.cfg f → (f.bytes.getD 1 0).extractLsb' 4 4 = 6 →
    (f.len.toNat = 4 → exec (.decf f) s = .next { s with responses :=
      { Response.headerOf f with
        status := 1, err := 5, dsub := deviceErrorRow ((f.bytes.getD 1 0).extractLsb' 0 4) (f.bytes.getD 2 0),
        dcode := f.bytes.getD 2 0, dskt := (f.bytes.getD 1 0).extractLsb' 0 4 } :: s.responses }) ∧
    (f.len.toNat ≠ 4 → exec (.decf f) s = .next { s with responses :=
      { Response.headerOf f with status := 1, err := 4 } :: s.responses })

/-- 41_frame_codec.md R129 (which the spec derives), R128 and 30_encoding.md R79: every other framed buffer is a parsed
reply: its payload is `f[1..n-2]`, its kind goes by its message type. -/
def Obligations.DecfGivesParsedReply : Prop :=
  ∀ (f : Buffer) (s : State), f.wf = true → Framed s.cfg f → ¬IsNetChange s.cfg f →
    (f.bytes.getD 1 0).extractLsb' 4 4 ≠ 6 → ∃ v : Vector Byte 16,
      v.toList = (f.bytes.drop 1).take (f.len.toNat - 2) ++ List.replicate (18 - f.len.toNat) 0 ∧
      exec (.decf f) s = .next { s with responses :=
        { Response.headerOf f with
          status := 0, olen := f.len - 2, obuf := v,
          pkind := if (f.bytes.getD 1 0).extractLsb' 4 4 = 4 then 1
            else if (f.bytes.getD 1 0).extractLsb' 4 4 = 5 then 2 else 0 } :: s.responses }

/-- 41_frame_codec.md R132 (which the spec derives; 90_conflicts.md C7): DECF of the frame ENCF built gives recipient,
broadcast flag and payload back, for a payload that is not error-typed and is not the network-change byte alone. -/
def Obligations.DecfInvertsEncf : Prop :=
  ∀ (bc : Bool) (rcpt : DevId) (p : Buffer) (s s' : State), p.wf = true → 1 ≤ p.len.toNat → p.len.toNat ≤ 14 →
    (p.bytes.getD 0 0).extractLsb' 4 4 ≠ 6 → ¬(p.len.toNat = 1 ∧ p.bytes.getD 0 0 = s.cfg.netchg) → s'.cfg = s.cfg →
    ∃ r r' : Response, exec (.encf bc rcpt p) s = .next { s with responses := r :: s.responses } ∧
      exec (.decf { len := r.olen, bytes := r.obuf.toList.take r.olen.toNat }) s'
        = .next { s' with responses := r' :: s'.responses } ∧
      r'.status = 0 ∧ r'.psnd = 0 ∧ r'.pbc = bc ∧ r'.prcpt = (if bc then 0 else rcpt) ∧
      r'.olen = p.len ∧ r'.obuf.toList.take p.len.toNat = p.bytes

/-! ### Error decoder -/

/-- 42_error_decoder.md R141, R142: always DeviceError, its sub-kind the first row that matches, its code and socket the
operands. -/
def Obligations.ErrdAlwaysRaisesDeviceError : Prop :=
  ∀ (skt : Socket) (code : Byte) (s : State), exec (.errd skt code) s = .next { s with responses :=
    { status := 1, err := 5, dsub := deviceErrorRow skt code, dcode := code, dskt := skt } :: s.responses }

/-! ### Session state machine -/

/-- 43_session.md R154, with R150, R151 and R153 for an ACK given by key. The rows' unchanged state after DuplicateAck
and the abort of a wait are the spec's own choices (92 D15, D20). -/
def Obligations.SackFollowsSessionTable : Prop :=
  ∀ (snd : DevId) (skt : Socket) (s : State),
    (skt = 0 → exec (.sack snd skt) s = .next { s with responses := { status := 0 } :: s.responses }) ∧
    (skt ≠ 0 → s.cell snd skt = .idle → ∃ t, exec (.sack snd skt) s = .next t ∧ Answered s t { status := 0 } ∧
      t.wait = s.wait ∧ t.cell snd skt = .outstanding ∧ OtherCellsKept s t snd skt) ∧
    (skt ≠ 0 → s.cell snd skt = .completed → ∃ t, exec (.sack snd skt) s = .next t ∧
      Answered s t { status := 0, anomaly := 2 } ∧
      t.wait = s.wait ∧ t.cell snd skt = .outstanding ∧ OtherCellsKept s t snd skt) ∧
    (skt ≠ 0 → s.cell snd skt = .outstanding → s.wait.v = false →
      exec (.sack snd skt) s = .next { s with responses := { status := 1, err := 7 } :: s.responses }) ∧
    (skt ≠ 0 → s.cell snd skt = .outstanding → s.wait.v = true →
      exec (.sack snd skt) s = .next { s with
        wait := { s.wait with v := false }
        responses := { status := 1, err := 7, waitEnd := 2 } :: s.responses })

/-- 43_session.md R155, with R150, R151 and R152 for a Completion given by key. The Completed row is the spec's own
choice (92 D14, log entry 9). -/
def Obligations.ScmpFollowsSessionTable : Prop :=
  ∀ (snd : DevId) (skt : Socket) (s : State),
    (skt = 0 → exec (.scmp snd skt) s = .next { s with responses := { status := 0 } :: s.responses }) ∧
    (skt ≠ 0 → s.cell snd skt ≠ .outstanding →
      exec (.scmp snd skt) s = .next { s with responses := { status := 0, anomaly := 1 } :: s.responses }) ∧
    (skt ≠ 0 → s.cell snd skt = .outstanding → s.wait = ⟨true, snd, skt⟩ →
      ∃ t, exec (.scmp snd skt) s = .next t ∧ Answered s t { status := 0, waitEnd := 1 } ∧
        t.wait = ⟨false, snd, skt⟩ ∧ t.cell snd skt = .idle ∧ OtherCellsKept s t snd skt) ∧
    (skt ≠ 0 → s.cell snd skt = .outstanding → s.wait ≠ ⟨true, snd, skt⟩ →
      ∃ t, exec (.scmp snd skt) s = .next t ∧ Answered s t { status := 0 } ∧
        t.wait = s.wait ∧ t.cell snd skt = .completed ∧ OtherCellsKept s t snd skt)

/-- 43_session.md R150 and R152, for every operation that feeds an event to a tracked key: SACK, SCMP, and RECV of an
ACK or Completion frame of any length. The row of a Completion for a Completed key and the unchanged state after
DuplicateAck are the spec's own choices (92 D14, D15). -/
def Obligations.EventsMoveKeysByTheTable : Prop :=
  ∀ (s : State) (i : Instr) (ev : Event) (snd : DevId) (skt : Socket), Feeds s.cfg i ev snd skt → skt ≠ 0 →
    ∃ (t : State) (r : Response), exec i s = .next t ∧ Answered s t r ∧ OtherCellsKept s t snd skt ∧
      (match ev, s.cell snd skt with
      | .ack, .idle => t.cell snd skt = .outstanding ∧ t.wait = s.wait ∧
          r.status = 0 ∧ r.anomaly = 0 ∧ r.waitEnd = 0
      | .ack, .outstanding => t.cell snd skt = .outstanding ∧ r.status = 1 ∧ r.err = 7 ∧ r.anomaly = 0
      | .ack, .completed => t.cell snd skt = .outstanding ∧ t.wait = s.wait ∧
          r.status = 0 ∧ r.anomaly = 2 ∧ r.waitEnd = 0
      | .cmpl, .idle => t.cell snd skt = .idle ∧ t.wait = s.wait ∧ r.status = 0 ∧ r.anomaly = 1 ∧ r.waitEnd = 0
      | .cmpl, .outstanding => r.status = 0 ∧ r.anomaly = 0 ∧
          (if s.wait = ⟨true, snd, skt⟩ then
            t.cell snd skt = .idle ∧ t.wait = ⟨false, snd, skt⟩ ∧ r.waitEnd = 1
          else t.cell snd skt = .completed ∧ t.wait = s.wait ∧ r.waitEnd = 0)
      | .cmpl, .completed => t.cell snd skt = .completed ∧ t.wait = s.wait ∧
          r.status = 0 ∧ r.anomaly = 1 ∧ r.waitEnd = 0)

/-- 43_session.md R156, R157: RECV is DECF, then the routing. Where DECF raises, RECV gives that error and only ends a
pending wait (R153); a reply of type 4 does what SACK does on its sender and socket, one of type 5 what SCMP does, and
the parsed fields stand; any other reply is DECF's. -/
def Obligations.RecvIsDecfThenRouting : Prop :=
  ∀ (f : Buffer) (s : State), ∃ rd : Response,
    exec (.decf f) s = .next { s with responses := rd :: s.responses } ∧
    (rd.status = 1 → exec (.recv f) s = .next { s with
      wait := { s.wait with v := false }
      responses := { rd with waitEnd := if s.wait.v then 2 else 0 } :: s.responses }) ∧
    (rd.status ≠ 1 → rd.ptype ≠ 4 → rd.ptype ≠ 5 → exec (.recv f) s = exec (.decf f) s) ∧
    (rd.status ≠ 1 → ∀ i : Instr, (rd.ptype = 4 ∧ i = .sack rd.psnd rd.pskt) ∨ (rd.ptype = 5 ∧ i = .scmp rd.psnd rd.pskt) →
      ∃ (t : State) (ru : Response), exec i s = .next t ∧ t.responses = ru :: s.responses ∧
        exec (.recv f) s = .next { t with responses :=
          { rd with status := ru.status, err := ru.err, anomaly := ru.anomaly, waitEnd := ru.waitEnd } :: s.responses })

/-- 43_session.md R151 (the OK is the spec's own choice, 92 D24) and R157: RECV of a reply on socket 0, or of one that
is neither ACK nor Completion, parses it and touches nothing. -/
def Obligations.RecvOfUntrackedReplyOnlyParses : Prop :=
  ∀ (f : Buffer) (s : State), Framed s.cfg f → ¬IsNetChange s.cfg f → (f.bytes.getD 1 0).extractLsb' 4 4 ≠ 6 →
    ((f.bytes.getD 1 0).extractLsb' 0 4 = 0 ∨
      ((f.bytes.getD 1 0).extractLsb' 4 4 ≠ 4 ∧ (f.bytes.getD 1 0).extractLsb' 4 4 ≠ 5)) →
    ∃ r : Response, r.status = 0 ∧ r.HasHeaderOf f ∧
      exec (.recv f) s = .next { s with responses := r :: s.responses } ∧ exec (.recv f) s = exec (.decf f) s

/-- 43_session.md R158 (the spec's own choice, 92 D21): an error frame or a network-change frame changes no cell, and a
pending wait ends. -/
def Obligations.RecvErrorFramesChangeNoCell : Prop :=
  ∀ (f : Buffer) (s : State), Framed s.cfg f →
    (IsNetChange s.cfg f ∨ (f.bytes.getD 1 0).extractLsb' 4 4 = 6) →
    ∃ r : Response, r.status = 1 ∧ (s.wait.v = true → r.waitEnd = 2) ∧
      exec (.recv f) s = .next { s with wait := { s.wait with v := false }, responses := r :: s.responses }

/-- 43_session.md R160, R161, R163 (which keys are accepted is the spec's own reading, 92 D16). -/
def Obligations.WstartFollowsItsRule : Prop :=
  ∀ (snd : DevId) (skt : Socket) (s : State),
    ((s.wait.v = true ∨ skt = 0 ∨ s.cell snd skt = .idle) →
      exec (.wstart snd skt) s = .next { s with responses := { status := 1, err := 9 } :: s.responses }) ∧
    (s.wait.v = false → skt ≠ 0 → s.cell snd skt = .completed →
      ∃ t, exec (.wstart snd skt) s = .next t ∧ Answered s t { status := 0, waitEnd := 1 } ∧ t.wait = s.wait ∧
        t.cell snd skt = .idle ∧ OtherCellsKept s t snd skt) ∧
    (s.wait.v = false → skt ≠ 0 → s.cell snd skt = .outstanding →
      exec (.wstart snd skt) s = .next { s with
        wait := { v := true, snd := snd, skt := skt }, responses := { status := 2 } :: s.responses })

/-- 43_session.md R166 (the error kind is the spec's own choice, 92 D23): a 3-byte frame of type 4 starts the wait of its
sender and socket, whatever its last byte; any other buffer is InvalidArgument. -/
def Obligations.WackChecksThenStartsWait : Prop :=
  ∀ (f : Buffer) (s : State),
    ((f.len.toNat = 3 ∧ (f.bytes.getD 1 0).extractLsb' 4 4 = 4) →
      exec (.wack f) s
        = exec (.wstart ((f.bytes.getD 0 0).extractLsb' 4 3) ((f.bytes.getD 1 0).extractLsb' 0 4)) s) ∧
    (¬(f.len.toNat = 3 ∧ (f.bytes.getD 1 0).extractLsb' 4 4 = 4) →
      exec (.wack f) s = .next { s with responses := { status := 1, err := 9 } :: s.responses })

/-- 43_session.md R166, R160, R163: where WACK completes. With no wait pending, an ACK frame for an Outstanding key
starts the wait, and for a Completed key it ends at once. -/
def Obligations.WackStartsOrFinishesWait : Prop :=
  ∀ (f : Buffer) (snd : DevId) (skt : Socket) (s : State), f.len.toNat = 3 →
    (f.bytes.getD 1 0).extractLsb' 4 4 = 4 → (f.bytes.getD 0 0).extractLsb' 4 3 = snd →
    (f.bytes.getD 1 0).extractLsb' 0 4 = skt → s.wait.v = false → skt ≠ 0 →
    (s.cell snd skt = .outstanding → exec (.wack f) s = .next { s with
      wait := { v := true, snd := snd, skt := skt }, responses := { status := 2 } :: s.responses }) ∧
    (s.cell snd skt = .completed → ∃ t, exec (.wack f) s = .next t ∧ Answered s t { status := 0, waitEnd := 1 } ∧
      t.wait = s.wait ∧ t.cell snd skt = .idle ∧ OtherCellsKept s t snd skt)

/-- 43_session.md R162 (policy (a), the spec's own choice, 92 D18): while a wait is pending WSTART and WACK fail with
InvalidArgument, and the wait, `SESS` and `WAIT` are unchanged. -/
def Obligations.SecondWaitIsRefused : Prop :=
  ∀ (i : Instr) (s : State), s.wait.v = true → i.startsWait = true →
    exec i s = .next { s with responses := { status := 1, err := 9, waitEnd := 0 } :: s.responses }

/-- 43_session.md R170 (that the key stays Outstanding is the spec's own choice, 92 D19). -/
def Obligations.WtmoEndsWaitWithTimeout : Prop :=
  ∀ s : State,
    (s.wait.v = true → exec .wtmo s = .next { s with
      wait := { s.wait with v := false }
      responses := { status := 1, err := 8, waitEnd := 3 } :: s.responses }) ∧
    (s.wait.v = false → exec .wtmo s = .next { s with responses := { status := 1, err := 9 } :: s.responses })

/-- 30_encoding.md R66: the three illegal op codes answer IllegalOp and change no state, a pending wait included. -/
def Obligations.IllegalOpsChangeNothing : Prop :=
  ∀ (r : Request) (i : Instr) (s : State),
    (r.op = 0x0 ∧ i = .illegal0) ∨ (r.op = 0xE ∧ i = .illegalE) ∨ (r.op = 0xF ∧ i = .illegalF) →
    decode r = i ∧ exec i s = .next { s with responses := { status := 1, err := 10 } :: s.responses }

/-! ### Whole-machine rules -/

/-- 10_state.md R24: the places of `V`, `SND` and `SKT` in the 8-bit register; `V` is written only by WSTART, WACK, WTMO
and the session update, and `SND` and `SKT` only when `V` goes from 0 to 1. (Reset: ResetLeavesEveryKeyIdle.) -/
def Obligations.WaitRegisterLayoutAndAccess : Prop :=
  (∀ w : WaitReg, w.bits.getLsbD 0 = w.v ∧ w.bits.extractLsb' 1 3 = w.snd ∧ w.bits.extractLsb' 4 4 = w.skt ∧
    WaitReg.ofBits w.bits = w) ∧
  (∀ b : BitVec 8, (WaitReg.ofBits b).bits = b) ∧
  (∀ (i : Instr) (s t : State), exec i s = .next t →
    (t.wait.v ≠ s.wait.v → i.feedsEvents = true ∨ i.startsWait = true ∨ i = .wtmo) ∧
    ((t.wait.snd ≠ s.wait.snd ∨ t.wait.skt ≠ s.wait.skt) → s.wait.v = false ∧ t.wait.v = true))

/-- 40_integer_codec.md R111, 41_frame_codec.md R131, 42_error_decoder.md R144, 20_memory.md R47: a pure operation
changes no part of the state and its response depends on the request and the configuration alone. -/
def Obligations.PureOperationsIgnoreAndKeepState : Prop :=
  ∀ i : Instr, i.isPure = true → ∀ s : State, ∃ r : Response,
    exec i s = .next { s with responses := r :: s.responses } ∧
    ∀ s' : State, s'.cfg = s.cfg → exec i s' = .next { s' with responses := r :: s'.responses }

/-- 30_encoding.md R60: every request, with any operands in any state, ends in a next state and gives exactly one
response; nothing else at the ports changes. -/
def Obligations.EveryRequestGivesOneResponse : Prop :=
  ∀ (i : Instr) (s : State), ∃ (t : State) (r : Response), exec i s = .next t ∧ Answered s t r

/-- 10_state.md R28: no request changes `TERM` or `NETCHG`. -/
def Obligations.NoRequestChangesConfiguration : Prop :=
  ∀ (i : Instr) (s t : State), exec i s = .next t → t.cfg = s.cfg

/-- 10_state.md R22: no request writes a cell of socket 0; those cells are Idle after reset, and a step keeps them so. -/
def Obligations.SocketZeroIsNeverWritten : Prop :=
  (∀ (i : Instr) (s t : State), exec i s = .next t → ∀ snd : DevId, t.cell snd 0 = s.cell snd 0) ∧
  (∀ snd : DevId, State.reset.cell snd 0 = .idle) ∧
  (∀ s t : State, step s = .next t → (∀ snd : DevId, s.cell snd 0 = .idle) → ∀ snd : DevId, t.cell snd 0 = .idle)

/-- 20_memory.md R45, R40, 43_session.md R150, R157, R160, R166: a request writes no cell but that of its key, which is its
operands for SACK, SCMP and WSTART and the sender and socket fields of its frame for RECV and WACK; every other operation
keeps the whole table. -/
def Obligations.RequestsWriteOnlyTheirOwnKey : Prop :=
  ∀ (i : Instr) (s t : State), exec i s = .next t →
    (∀ (snd : DevId) (skt : Socket), i.sessionKey = some (snd, skt) → OtherCellsKept s t snd skt) ∧
    (i.sessionKey = none → t.sess = s.sess)

/-- 60_exceptions.md R206 (with R153 and R170): a request that raises an error leaves `SESS` and `WAIT` as they were,
but that SACK, SCMP or RECV raising while a wait is pending clears `WAIT.V` and reports ABORTED, and WTMO clears it and
reports TIMEOUT. -/
def Obligations.FailingRequestKeepsState : Prop :=
  ∀ (i : Instr) (s t : State) (r : Response), exec i s = .next t → t.responses = r :: s.responses → r.status = 1 →
    t.sess = s.sess ∧
    (s.wait.v = true ∧ i.feedsEvents = true → t.wait = { s.wait with v := false } ∧ r.waitEnd = 2) ∧
    (s.wait.v = true ∧ i = .wtmo → t.wait = { s.wait with v := false } ∧ r.waitEnd = 3) ∧
    (¬(s.wait.v = true ∧ (i.feedsEvents = true ∨ i = .wtmo)) → t.wait = s.wait ∧ r.waitEnd = 0)

/-- 43_session.md R164 (which the spec derives): a pending wait stays as it is, or ends in exactly one of four ways:
consumed by a SCMP or RECV, aborted by an error of SACK, SCMP or RECV, timed out by WTMO, or reset. -/
def Obligations.PendingWaitEndsInFourWays : Prop :=
  ∀ s t : State, s.wait.v = true → step s = .next t →
    t.wait = s.wait ∨
    (∃ rest, s.inputs = .reset :: rest ∧ t.wait = ⟨false, 0, 0⟩) ∨
    ∃ (q : Request) (rest : List Input) (r : Response), s.inputs = .request q :: rest ∧
      t.responses = r :: s.responses ∧ t.wait = { s.wait with v := false } ∧
      (((q.op = 0x9 ∨ q.op = 0xA) ∧ r.status = 0 ∧ r.waitEnd = 1 ∧ t.cell s.wait.snd s.wait.skt = .idle ∧
          OtherCellsKept s t s.wait.snd s.wait.skt) ∨
       ((q.op = 0x8 ∨ q.op = 0x9 ∨ q.op = 0xA) ∧ r.status = 1 ∧ r.waitEnd = 2 ∧ t.sess = s.sess) ∨
       (q.op = 0xD ∧ r.status = 1 ∧ r.err = 8 ∧ r.waitEnd = 3 ∧ t.sess = s.sess))

/-- 30_encoding.md R62 and 43_session.md R160: status PENDING is given exactly where a wait starts, only by WSTART and
WACK, and the awaited key is then an Outstanding key of a tracked socket. -/
def Obligations.PendingStatusMeansWaitStarted : Prop :=
  ∀ (i : Instr) (s t : State) (r : Response), exec i s = .next t → t.responses = r :: s.responses →
    (r.status = 2 ↔ s.wait.v = false ∧ t.wait.v = true) ∧
    (r.status = 2 → i.startsWait = true ∧ t.sess = s.sess ∧ t.wait.skt ≠ 0 ∧
      t.cell t.wait.snd t.wait.skt = .outstanding)

/-- 10_state.md R30 (which the spec derives): socket 0 Idle and the awaited key Outstanding hold after reset, and every
response given so far (none) is well formed; the default configuration meets the constraint of 00_scope.md R6 (log
entry 1). -/
def Obligations.InvariantsHoldAtReset : Prop :=
  State.reset.SessionInv ∧ State.reset.ResponsesWellFormed ∧ State.reset.cfg.legal

/-- 10_state.md R30 (which the spec derives): every step, from every state that meets the session invariant, keeps it. -/
def Obligations.SessionInvariantKeptByEveryStep : Prop :=
  ∀ s t : State, s.SessionInv → step s = .next t → t.SessionInv

/-- 30_encoding.md R62, R63, 60_exceptions.md R200, R203, 42_error_decoder.md R140: every response a step adds has the
listed codes, carries the details of its error and no others, and holds 0 where nothing is driven. -/
def Obligations.ResponsesStayWellFormed : Prop :=
  ∀ s t : State, s.ResponsesWellFormed → step s = .next t → t.ResponsesWellFormed

/-- 43_session.md R150, R160: what SACK, SCMP and WSTART do to a key, and what they answer, depends on that key's cell
and on `WAIT` alone; the other 127 cells and the configuration do not matter. -/
def Obligations.OtherKeysDoNotMatter : Prop :=
  ∀ (snd : DevId) (skt : Socket) (i : Instr) (s s' : State),
    i = .sack snd skt ∨ i = .scmp snd skt ∨ i = .wstart snd skt →
    s.cell snd skt = s'.cell snd skt → s.wait = s'.wait →
    ∃ (t t' : State) (r : Response), exec i s = .next t ∧ exec i s' = .next t' ∧ Answered s t r ∧ Answered s' t' r ∧
      t.cell snd skt = t'.cell snd skt ∧ t.wait = t'.wait

/-- 43_session.md R172 (which the spec derives): from an Idle key and no wait, ACK, Completion and the consuming wait end
OK with DONE, in both orders, and leave the table as it was. -/
def Obligations.AckCompletionConsumeInBothOrders : Prop :=
  ∀ (snd : DevId) (skt : Socket) (s : State), skt ≠ 0 → s.cell snd skt = .idle → s.wait.v = false →
    (∃ t1 t2 t3 : State, exec (.sack snd skt) s = .next t1 ∧ exec (.scmp snd skt) t1 = .next t2 ∧
      exec (.wstart snd skt) t2 = .next t3 ∧
      t3.responses = { status := 0, waitEnd := 1 } :: { status := 0 } :: { status := 0 } :: s.responses ∧
      t3.sess = s.sess ∧ t3.wait = s.wait) ∧
    (∃ t1 t2 t3 : State, exec (.sack snd skt) s = .next t1 ∧ exec (.wstart snd skt) t1 = .next t2 ∧
      exec (.scmp snd skt) t2 = .next t3 ∧
      t3.responses = { status := 0, waitEnd := 1 } :: { status := 2 } :: { status := 0 } :: s.responses ∧
      t3.sess = s.sess ∧ t3.wait = ⟨false, snd, skt⟩)

/-- 43_session.md R171 (which the spec derives): after a timeout the awaited key is an Outstanding key like any other: an
ACK raises DuplicateAck, a Completion makes it Completed, a new WSTART accepts it. -/
def Obligations.TimedOutKeyStaysOutstanding : Prop :=
  ∀ s : State, s.SessionInv → s.wait.v = true → ∃ t : State, exec .wtmo s = .next t ∧
    (∃ u, exec (.sack s.wait.snd s.wait.skt) t = .next u ∧ Answered t u { status := 1, err := 7 } ∧ u.sess = s.sess) ∧
    (∃ u, exec (.scmp s.wait.snd s.wait.skt) t = .next u ∧ Answered t u { status := 0 } ∧
      u.cell s.wait.snd s.wait.skt = .completed) ∧
    (∃ u, exec (.wstart s.wait.snd s.wait.skt) t = .next u ∧ Answered t u { status := 2 } ∧ u.wait = s.wait)

/-- 43_session.md R165, R160, R170, 30_encoding.md R68: a `consumeCompletion` whose host gives up at some point (its
events hold a timeout) always ends: from a key with an entry and no wait pending, whatever frames come before, the last
response reports how the wait ended and no wait is pending. -/
def Obligations.ConsumeWithTimeoutAlwaysEnds : Prop :=
  ∀ (snd : DevId) (skt : Socket) (events : List WaitEvent) (s : State), skt ≠ 0 → s.cell snd skt ≠ .idle →
    s.wait.v = false → WaitEvent.timeout ∈ events →
    ∃ t, consumeCompletion snd skt events s = .next t ∧ t.lastResponse.waitEnd ≠ 0 ∧ t.wait.v = false

/-- 43_session.md R152, R160, R163, 30_encoding.md R68: where a `consumeCompletion` ends with DONE the entry is removed
and no wait is pending; where it ends any other way the entry is still in the table. -/
def Obligations.ConsumeRemovesEntryExactlyWhenDone : Prop :=
  ∀ (snd : DevId) (skt : Socket) (events : List WaitEvent) (s t : State), skt ≠ 0 → s.cell snd skt ≠ .idle →
    s.wait.v = false → consumeCompletion snd skt events s = .next t →
    (t.lastResponse.waitEnd = 1 → t.cell snd skt = .idle ∧ t.wait.v = false) ∧
    (t.lastResponse.waitEnd ≠ 1 → t.cell snd skt ≠ .idle)
end

