-- ==== Sys2Proof/Laws/Codec.lean ====
section
/-! SUPPORT. The small facts about nibbles, words, headers and 16-byte ports. -/

namespace Sys2Proof

@[simp] theorem padTo16_getElem (l : List Byte) (i : Nat) (h : i < 16) : (padTo16 l)[i] = l.getD i 0 := by
  simp [padTo16]

/-- A port holds its bytes and zeros after them. -/
theorem padTo16_toList {l : List Byte} (h : l.length ≤ 16) :
    (padTo16 l).toList = l ++ List.replicate (16 - l.length) 0 := by
  apply List.ext_getElem
  · simp; omega
  · intro i h1 h2
    have hi : i < 16 := by simpa using h1
    rw [Vector.getElem_toList, padTo16_getElem _ _ hi]
    by_cases hl : i < l.length
    · simp [List.getElem_append_left hl, hl]
    · rw [List.getElem_append_right (by omega)]
      rw [List.getD_eq_default _ _ (Nat.le_of_not_lt hl), List.getElem_replicate]

theorem padTo16_take {l : List Byte} (h : l.length ≤ 16) : (padTo16 l).toList.take l.length = l := by
  simp [padTo16_toList h]

/-! The op map of 30_encoding.md R65, one row each. -/

section OpMap
variable {r : Request}
theorem decode_illegal0 (h : r.op = 0x0) : decode r = .illegal0 := by simp [decode, h]
theorem decode_encw (h : r.op = 0x1) : decode r = .encw r.a := by simp [decode, h]
theorem decode_decw (h : r.op = 0x2) : decode r = .decw r.buf[0] r.buf[1] r.buf[2] r.buf[3] := by simp [decode, h]
theorem decode_encs (h : r.op = 0x3) : decode r = .encs r.a r.lim := by simp [decode, h]
theorem decode_decs (h : r.op = 0x4) : decode r = .decs r.buf[0] r.buf[1] r.buf[2] r.buf[3] := by simp [decode, h]
theorem decode_encf (h : r.op = 0x5) : decode r = .encf r.bc r.rcpt (bufferOf r.len r.buf) := by simp [decode, h]
theorem decode_decf (h : r.op = 0x6) : decode r = .decf (bufferOf r.len r.buf) := by simp [decode, h]
theorem decode_errd (h : r.op = 0x7) : decode r = .errd r.skt r.code := by simp [decode, h]
theorem decode_sack (h : r.op = 0x8) : decode r = .sack r.snd r.skt := by simp [decode, h]
theorem decode_scmp (h : r.op = 0x9) : decode r = .scmp r.snd r.skt := by simp [decode, h]
theorem decode_recv (h : r.op = 0xA) : decode r = .recv (bufferOf r.len r.buf) := by simp [decode, h]
theorem decode_wstart (h : r.op = 0xB) : decode r = .wstart r.snd r.skt := by simp [decode, h]
theorem decode_wack (h : r.op = 0xC) : decode r = .wack (bufferOf r.len r.buf) := by simp [decode, h]
theorem decode_wtmo (h : r.op = 0xD) : decode r = .wtmo := by simp [decode, h]
theorem decode_illegalE (h : r.op = 0xE) : decode r = .illegalE := by simp [decode, h]
theorem decode_illegalF (h : r.op = 0xF) : decode r = .illegalF := by simp [decode, h]
end OpMap

namespace Machine

theorem loNibble_zeroExtend (n : BitVec 4) : loNibble (n.zeroExtend 8) = n := by
  revert n
  decide

theorem hiNibble_zeroExtend (n : BitVec 4) : hiNibble (n.zeroExtend 8) = 0 := by
  revert n
  decide

/-- The four nibbles of a word, put back together (40_integer_codec.md R102). -/
theorem nibbles_append (v : Word) :
    v.extractLsb' 12 4 ++ v.extractLsb' 8 4 ++ v.extractLsb' 4 4 ++ v.extractLsb' 0 4 = v := by
  ext i hi
  simp only [BitVec.getElem_append, BitVec.getElem_extractLsb']
  split_ifs <;> simp [← BitVec.getLsbD_eq_getElem] <;> congr 1 <;> omega

/-- A byte with a zero high nibble is at most 0x0F. -/
theorem nibble_le (n : BitVec 4) : (n.zeroExtend 8).toNat ≤ 0x0F := by
  have := n.isLt
  simp [BitVec.toNat_setWidth]
  omega

/-- The header of a broadcast and of a device frame (41_frame_codec.md R120). -/
theorem header_broadcast (rcpt : DevId) : header true rcpt = 0x88 := by
  simp [header, ctrlId]

theorem header_device (rcpt : DevId) : header false rcpt = 0x80 ||| rcpt.zeroExtend 8 := by
  simp [header, ctrlId]

theorem buildFrame_length (c : Config) (bc : Bool) (rcpt : DevId) (p : List Byte) :
    (buildFrame c bc rcpt p).length = p.length + 2 := by
  simp [buildFrame]

/-- A parsed reply's payload holds every byte between header and terminator (41_frame_codec.md R129). -/
theorem replyPayload_length {f : Buffer} (h : f.wf = true) (hn : frameLen f ≤ 16) :
    (replyPayload f).length = frameLen f - 2 := by
  have : f.bytes.length = f.len.toNat := by
    simpa [Buffer.wf, readableBytes, show f.len.toNat ≤ 16 from hn] using h
  simp [replyPayload, frameLen, this]
  omega

end Machine

end Sys2Proof
end

