-- ==== Sys2Proof/Laws/State.lean ====
section
/-! SUPPORT. What each update of the state does to each field, and to each session cell. -/

namespace Sys2Proof.Machine

section Respond
variable (s : State) (r : Response)
@[simp] theorem State.respond_sess : (s.respond r).sess = s.sess := rfl
@[simp] theorem State.respond_wait : (s.respond r).wait = s.wait := rfl
@[simp] theorem State.respond_cfg : (s.respond r).cfg = s.cfg := rfl
@[simp] theorem State.respond_inputs : (s.respond r).inputs = s.inputs := rfl
@[simp] theorem State.respond_responses : (s.respond r).responses = r :: s.responses := rfl
@[simp] theorem State.respond_cell (a b) : (s.respond r).cell a b = s.cell a b := rfl
@[simp] theorem State.respond_lastResponse : (s.respond r).lastResponse = r := rfl
end Respond

section SetCell
variable (s : State) (snd : DevId) (skt : Socket) (st : SessSt)
@[simp] theorem State.setCell_wait : (s.setCell snd skt st).wait = s.wait := rfl
@[simp] theorem State.setCell_cfg : (s.setCell snd skt st).cfg = s.cfg := rfl
@[simp] theorem State.setCell_inputs : (s.setCell snd skt st).inputs = s.inputs := rfl
@[simp] theorem State.setCell_responses : (s.setCell snd skt st).responses = s.responses := rfl

/-- Reading the table after one write: the written cell holds the value, every other cell is as before. -/
theorem State.setCell_cell (a : DevId) (b : Socket) :
    (s.setCell snd skt st).cell a b = if snd = a ∧ skt = b then st else s.cell a b := by
  simp only [State.cell, State.setCell, Vector.getElem_set, BitVec.toNat_inj]
  by_cases h : snd = a
  · by_cases h' : skt = b <;> simp [h, h', BitVec.toNat_inj]
  · simp [h]

@[simp] theorem State.setCell_cell_same : (s.setCell snd skt st).cell snd skt = st := by
  simp [State.setCell_cell]

theorem State.setCell_cell_other {a : DevId} {b : Socket} (h : (a, b) ≠ (snd, skt)) :
    (s.setCell snd skt st).cell a b = s.cell a b := by
  rw [State.setCell_cell, if_neg]
  rintro ⟨rfl, rfl⟩
  exact h rfl

/-- A second write to a cell wins. -/
@[simp] theorem State.setCell_setCell (st' : SessSt) :
    (s.setCell snd skt st).setCell snd skt st' = s.setCell snd skt st' := by
  simp [State.setCell]

/-- Writing the value a cell holds changes nothing. -/
theorem State.setCell_of_cell_eq (h : s.cell snd skt = st) : s.setCell snd skt st = s := by
  subst h
  simp [State.cell, State.setCell]
end SetCell

section Wait
variable (s : State) (snd : DevId) (skt : Socket)
@[simp] theorem State.beginWait_sess : (s.beginWait snd skt).sess = s.sess := rfl
@[simp] theorem State.beginWait_wait : (s.beginWait snd skt).wait = ⟨true, snd, skt⟩ := rfl
@[simp] theorem State.beginWait_cfg : (s.beginWait snd skt).cfg = s.cfg := rfl
@[simp] theorem State.beginWait_inputs : (s.beginWait snd skt).inputs = s.inputs := rfl
@[simp] theorem State.beginWait_responses : (s.beginWait snd skt).responses = s.responses := rfl
@[simp] theorem State.beginWait_cell (a b) : (s.beginWait snd skt).cell a b = s.cell a b := rfl
@[simp] theorem State.clearWait_sess : s.clearWait.sess = s.sess := rfl
@[simp] theorem State.clearWait_wait : s.clearWait.wait = ⟨false, s.wait.snd, s.wait.skt⟩ := rfl
@[simp] theorem State.clearWait_cfg : s.clearWait.cfg = s.cfg := rfl
@[simp] theorem State.clearWait_inputs : s.clearWait.inputs = s.inputs := rfl
@[simp] theorem State.clearWait_responses : s.clearWait.responses = s.responses := rfl
@[simp] theorem State.clearWait_cell (a b) : s.clearWait.cell a b = s.cell a b := rfl
@[simp] theorem State.assertReset_wait : s.assertReset.wait = ⟨false, 0, 0⟩ := rfl
@[simp] theorem State.assertReset_cfg : s.assertReset.cfg = s.cfg := rfl
@[simp] theorem State.assertReset_inputs : s.assertReset.inputs = s.inputs := rfl
@[simp] theorem State.assertReset_responses : s.assertReset.responses = s.responses := rfl

@[simp] theorem State.assertReset_cell (a : DevId) (b : Socket) : s.assertReset.cell a b = .idle := by
  simp [State.cell, State.assertReset, emptySess]

theorem State.awaits_iff :
    s.awaits snd skt = true ↔ s.wait.v = true ∧ s.wait.snd = snd ∧ s.wait.skt = skt := by
  simp [State.awaits, and_assoc]
end Wait

/-- Two session tables with the same cells are the same table. -/
theorem State.sess_ext {s t : State} (h : ∀ a b, s.cell a b = t.cell a b) : s.sess = t.sess := by
  ext a ha b hb
  have := h (BitVec.ofNat 3 a) (BitVec.ofNat 4 b)
  simpa [State.cell, Nat.mod_eq_of_lt ha, Nat.mod_eq_of_lt hb] using this

end Sys2Proof.Machine
end

