-- ==== Sys2Proof/Laws/Ops.lean ====
section
/-! SUPPORT. What each shared operation can do, said once: the next state and the response of `finish`, `fail`, the
session update, the start of a wait, the frame decoder and the arrival of an input. -/

namespace Sys2Proof.Machine

section Endings
variable {r : Response} {s t : State}

@[simp] theorem finish_next : finish r s = .next t ↔ t = s.respond r.finish := by
  simp [finish, eq_comm]

@[simp] theorem pend_next : pend r s = .next t ↔ t = s.respond r.pend := by
  simp [pend, eq_comm]

@[simp] theorem fail_next : fail r s = .next t ↔ t = s.respond r := by
  simp [fail, eq_comm]

@[simp] theorem raise_next {e : ErrKind} : raise e r s = .next t ↔ t = s.respond (r.raise e) := by
  simp [raise]

/-- An error of SACK, SCMP or RECV ends a pending wait and leaves everything else (43_session.md R153). -/
theorem failSession_next : failSession r s = .next t ↔
    (s.wait.v = true ∧ t = s.clearWait.respond (r.endWait .aborted)) ∨ (s.wait.v = false ∧ t = s.respond r) := by
  cases h : s.wait.v <;> simp [failSession, h]

/-- A completed key is consumed where it is awaited, and kept as Completed elsewhere (43_session.md R152). -/
theorem completeKey_next {snd : DevId} {skt : Socket} : completeKey snd skt r s = .next t ↔
    (s.awaits snd skt = true ∧ t = ((s.setCell snd skt .idle).clearWait).respond (r.endWait .done).finish) ∨
    (s.awaits snd skt = false ∧ t = (s.setCell snd skt .completed).respond r.finish) := by
  cases h : s.awaits snd skt <;> simp [completeKey, h]
end Endings

/-- Everything the session update can do, guards included (43_session.md R150 to R153). -/
theorem sessionUpdate_next {ev : Event} {snd : DevId} {skt : Socket} {r : Response} {s t : State} :
    sessionUpdate ev snd skt r s = .next t ↔
    (skt = 0#4 ∧ t = s.respond r.finish) ∨
    (skt ≠ 0#4 ∧ ev = .ack ∧ s.cell snd skt = .idle ∧ t = (s.setCell snd skt .outstanding).respond r.finish) ∨
    (skt ≠ 0#4 ∧ ev = .ack ∧ s.cell snd skt = .outstanding ∧ failSession (r.raise .duplicateAck) s = .next t) ∨
    (skt ≠ 0#4 ∧ ev = .ack ∧ s.cell snd skt = .completed ∧
      t = (s.setCell snd skt .outstanding).respond (r.note .staleCompletionDiscarded).finish) ∨
    (skt ≠ 0#4 ∧ ev = .cmpl ∧ s.cell snd skt = .outstanding ∧ completeKey snd skt r s = .next t) ∨
    (skt ≠ 0#4 ∧ ev = .cmpl ∧ s.cell snd skt ≠ .outstanding ∧
      t = s.respond (r.note .unexpectedCompletion).finish) := by
  by_cases h0 : skt = 0#4
  · simp [sessionUpdate, h0]
  · cases ev <;> cases hc : s.cell snd skt <;> simp [sessionUpdate, h0, hc]

/-- Everything the start of a wait can do, guards included (43_session.md R160 to R163). -/
theorem startWait_next {snd : DevId} {skt : Socket} {s t : State} :
    startWait snd skt s = .next t ↔
    ((s.wait.v = true ∨ skt = 0#4 ∨ s.cell snd skt = .idle) ∧ t = s.respond (Response.raise .invalidArgument .undriven)) ∨
    (s.wait.v = false ∧ skt ≠ 0#4 ∧ s.cell snd skt = .completed ∧
      t = (s.setCell snd skt .idle).respond (Response.endWait .done .undriven).finish) ∨
    (s.wait.v = false ∧ skt ≠ 0#4 ∧ s.cell snd skt = .outstanding ∧
      t = (s.beginWait snd skt).respond Response.undriven.pend) := by
  cases hv : s.wait.v <;> by_cases h0 : skt = 0#4 <;> cases hc : s.cell snd skt <;>
    simp [startWait, hv, h0, hc]

/-- The session update writes no cell but that of its key (43_session.md R150). -/
theorem sessionUpdate_cell_other {ev : Event} {snd a : DevId} {skt b : Socket} {r : Response} {s t : State}
    (h : sessionUpdate ev snd skt r s = .next t) (hk : (a, b) ≠ (snd, skt)) : t.cell a b = s.cell a b := by
  obtain ⟨-, rfl⟩ | ⟨-, -, -, rfl⟩ | ⟨-, -, -, h⟩ | ⟨-, -, -, rfl⟩ | ⟨-, -, -, h⟩ | ⟨-, -, -, rfl⟩ :=
    sessionUpdate_next.1 h
  · rfl
  · exact State.setCell_cell_other _ _ _ _ hk
  · obtain ⟨-, rfl⟩ | ⟨-, rfl⟩ := failSession_next.1 h <;> rfl
  · exact State.setCell_cell_other _ _ _ _ hk
  · obtain ⟨-, rfl⟩ | ⟨-, rfl⟩ := completeKey_next.1 h <;> exact State.setCell_cell_other _ _ _ _ hk
  · rfl

/-- The start of a wait writes no cell but that of its key (43_session.md R160). -/
theorem startWait_cell_other {snd a : DevId} {skt b : Socket} {s t : State}
    (h : startWait snd skt s = .next t) (hk : (a, b) ≠ (snd, skt)) : t.cell a b = s.cell a b := by
  obtain ⟨-, rfl⟩ | ⟨-, -, -, rfl⟩ | ⟨-, -, -, rfl⟩ := startWait_next.1 h
  · rfl
  · exact State.setCell_cell_other _ _ _ _ hk
  · rfl

/-- Everything the frame decoder can do, in the order of its checks (41_frame_codec.md R123 to R130): the framing checks,
then a network change, then an error frame of a length other than 4, then a device error, then a parsed reply. -/
theorem decodeFrame_cases (c : Config) (f : Buffer) :
    ((frameLen f < 3 ∨ frameLen f > 16 ∨ frameByte f (frameLen f - 1) ≠ c.term) ∧
      decodeFrame c f = .error (Response.raise .protocolFraming .undriven)) ∨
    ((3 ≤ frameLen f ∧ frameLen f ≤ 16 ∧ frameByte f (frameLen f - 1) = c.term) ∧
      (((frameLen f = 3 ∧ frameByte f 1 = c.netchg) ∧
          decodeFrame c f = .error ((parsedFields f).raise .networkChange)) ∨
       (¬(frameLen f = 3 ∧ frameByte f 1 = c.netchg) ∧
         ((qqType (frameByte f 1) = typeError ∧ frameLen f ≠ 4 ∧
            decodeFrame c f = .error ((parsedFields f).raise .protocolError)) ∨
          (qqType (frameByte f 1) = typeError ∧ frameLen f = 4 ∧
            decodeFrame c f = .error
              ((parsedFields f).raiseDevice (errdecode (qqSocket (frameByte f 1)) (frameByte f 2)))) ∨
          (qqType (frameByte f 1) ≠ typeError ∧
            decodeFrame c f = .ok { (parsedFields f).driveBytes (replyPayload f) with
                                    pkind := (replyKind (qqType (frameByte f 1))).code }))))) := by
  by_cases h1 : frameLen f < 3 ∨ frameLen f > 16
  · exact .inl ⟨by omega, by rw [decodeFrame, if_pos h1]⟩
  by_cases h2 : frameByte f (frameLen f - 1) = c.term
  · refine .inr ⟨⟨by omega, by omega, h2⟩, ?_⟩
    by_cases h3 : frameLen f = 3 ∧ frameByte f 1 = c.netchg
    · exact .inl ⟨h3, by rw [decodeFrame, if_neg h1, if_neg (not_not.2 h2), if_pos h3]⟩
    refine .inr ⟨h3, ?_⟩
    by_cases h4 : qqType (frameByte f 1) = typeError
    · by_cases h5 : frameLen f = 4
      · exact .inr (.inl ⟨h4, h5, by
          rw [decodeFrame, if_neg h1, if_neg (not_not.2 h2), if_neg h3, if_pos h4, if_neg (not_not.2 h5)]⟩)
      · exact .inl ⟨h4, h5, by
          rw [decodeFrame, if_neg h1, if_neg (not_not.2 h2), if_neg h3, if_pos h4, if_pos h5]⟩
    · exact .inr (.inr ⟨h4, by
        rw [decodeFrame, if_neg h1, if_neg (not_not.2 h2), if_neg h3, if_neg h4]⟩)
  · exact .inl ⟨.inr (.inr h2), by rw [decodeFrame, if_neg h1, if_pos h2]⟩

/-- The block waits exactly where the host presents nothing. -/
theorem State.arrival_cases (s : State) :
    (s.inputs = [] ∧ s.arrival = .nothing) ∨
    (∃ rest, s.inputs = .reset :: rest ∧ s.arrival = .reset { s with inputs := rest }) ∨
    (∃ r rest, s.inputs = .request r :: rest ∧ s.arrival = .request r { s with inputs := rest }) := by
  unfold State.arrival
  rcases s.inputs with _ | ⟨_ | r, rest⟩ <;> simp

/-- Everything one step can do. -/
theorem step_cases (s : State) :
    (s.inputs = [] ∧ step s = .next s) ∨
    (∃ rest, s.inputs = .reset :: rest ∧ step s = .next (State.assertReset { s with inputs := rest })) ∨
    (∃ r rest, s.inputs = .request r :: rest ∧ step s = exec (decode r) { s with inputs := rest }) := by
  unfold step
  obtain ⟨h, ha⟩ | ⟨rest, h, ha⟩ | ⟨r, rest, h, ha⟩ := s.arrival_cases <;> simp [h, ha]

/-! The host's loop (30_encoding.md R68): it ends where its events do, or at the first response that reports the end of a
wait. -/

@[simp] theorem awaitEnd_nil (s : State) : awaitEnd [] s = .next s := rfl

theorem awaitEnd_cons_next {e : WaitEvent} {es : List WaitEvent} {s t : State} (h : exec e.request s = .next t) :
    awaitEnd (e :: es) s = if t.lastResponse.waitEnd = 0 then awaitEnd es t else .next t := by
  simp [awaitEnd, h]

theorem waitCall_next {i : Instr} {es : List WaitEvent} {s t : State} (h : exec i s = .next t) :
    waitCall i es s = if t.lastResponse.status = Status.pending.code then awaitEnd es t else .next t := by
  simp [waitCall, h]

end Sys2Proof.Machine
end

