-- ==== Sys2Proof/Laws/PerInstr.lean ====
section
/-! SUPPORT. The family EncodesOwnOp, made per instruction: the request bundle of an instruction carries the op code of
its row of spec/opcode_table.json (30_encoding.md R65). -/

namespace Sys2Proof.Laws.EncodesOwnOp

/-- The encoder writes the instruction's op code, and the decoder reads an instruction of that op code back. -/
def Statement (i : Instr) : Prop := (encode i).op = i.opcode ∧ (decode (encode i)).opcode = i.opcode

theorem encw (a : Word) : Statement (.encw a) :=
  ⟨rfl, by rw [decode_encw rfl]; rfl⟩
theorem decw (b0 b1 b2 b3 : Byte) : Statement (.decw b0 b1 b2 b3) :=
  ⟨rfl, by rw [decode_decw rfl]; simp only [Instr.opcode]⟩
theorem encs (a lim : Word) : Statement (.encs a lim) :=
  ⟨rfl, by rw [decode_encs rfl]; rfl⟩
theorem decs (b0 b1 b2 b3 : Byte) : Statement (.decs b0 b1 b2 b3) :=
  ⟨rfl, by rw [decode_decs rfl]; simp only [Instr.opcode]⟩
theorem encf (bc : Bool) (rcpt : DevId) (p : Buffer) : Statement (.encf bc rcpt p) :=
  ⟨rfl, by rw [decode_encf rfl]; rfl⟩
theorem decf (f : Buffer) : Statement (.decf f) :=
  ⟨rfl, by rw [decode_decf rfl]; rfl⟩
theorem errd (skt : Socket) (code : Byte) : Statement (.errd skt code) :=
  ⟨rfl, by rw [decode_errd rfl]; rfl⟩
theorem sack (snd : DevId) (skt : Socket) : Statement (.sack snd skt) :=
  ⟨rfl, by rw [decode_sack rfl]; rfl⟩
theorem scmp (snd : DevId) (skt : Socket) : Statement (.scmp snd skt) :=
  ⟨rfl, by rw [decode_scmp rfl]; rfl⟩
theorem recv (f : Buffer) : Statement (.recv f) :=
  ⟨rfl, by rw [decode_recv rfl]; rfl⟩
theorem wstart (snd : DevId) (skt : Socket) : Statement (.wstart snd skt) :=
  ⟨rfl, by rw [decode_wstart rfl]; rfl⟩
theorem wack (f : Buffer) : Statement (.wack f) :=
  ⟨rfl, by rw [decode_wack rfl]; rfl⟩
theorem wtmo : Statement .wtmo :=
  ⟨rfl, by rw [decode_wtmo rfl]⟩
theorem illegal0 : Statement .illegal0 :=
  ⟨rfl, by rw [decode_illegal0 rfl]⟩
theorem illegalE : Statement .illegalE :=
  ⟨rfl, by rw [decode_illegalE rfl]⟩
theorem illegalF : Statement .illegalF :=
  ⟨rfl, by rw [decode_illegalF rfl]⟩

end Sys2Proof.Laws.EncodesOwnOp
end

