-- ==== Sys2Proof/Tests/Slice0.lean ====
section
/-! SUPPORT. Tests of one step each, with the expected results of 95_test_vectors.md (its ids stand in the comments); the
smoke test of WellFormed; requests written out field by field; and, for every obligation with hypotheses, a witness that
meets them together. -/

namespace Sys2Proof.Tests

open Sys2Proof Sys2Proof.Machine

/-- A state with these session cells, this wait, and the default parameters. -/
def stateOf (cells : List (DevId × Socket × SessSt)) (wait : WaitReg) : State :=
  cells.foldl (fun s c => s.setCell c.1 c.2.1 c.2.2) { State.reset with wait := wait }

def noWait : WaitReg := ⟨false, 0, 0⟩

/-- The response of a request, where it ends in a next state. -/
def answer (o : Result) : Option Response :=
  match o with
  | .next t => some t.lastResponse
  | .fault _ => none
  | .refused _ => none

/-- The next state of a request with its response taken away, where there is one. -/
def after (o : Result) : Option State :=
  match o with
  | .next t => some { t with responses := [] }
  | .fault _ => none
  | .refused _ => none

/-! ### WellFormed: the check on a buffer, in each constructor that has one -/

theorem test_wf_refuses_missing_byte_encf : (Instr.encf false 1 ⟨4, [0x01, 0x04, 0x07]⟩).wf = false := by decide
theorem test_wf_refuses_extra_byte_decf : (Instr.decf ⟨3, [0x90, 0x41, 0xFF, 0x00]⟩).wf = false := by decide
theorem test_wf_refuses_no_bytes_recv : (Instr.recv ⟨3, []⟩).wf = false := by decide
theorem test_wf_refuses_bytes_over_16_wack :
    (Instr.wack ⟨17, [0, 0, 0, 0, 0, 0, 0, 0, 0, 0, 0, 0, 0, 0, 0, 0, 0]⟩).wf = false := by decide
theorem test_wf_accepts_len_31 : (Instr.decf ⟨31, []⟩).wf = true := by decide

/-! ### Decoding: requests written from 30_encoding.md R65 and the encodings of 95_test_vectors.md L3 -/

def emptyBuf : Vector Byte 16 := #v[0, 0, 0, 0, 0, 0, 0, 0, 0, 0, 0, 0, 0, 0, 0, 0]

theorem test_decode_encw : decode { op := 0b0001, a := 0x1234 } = .encw 0x1234 := by decide
theorem test_decode_decw :
    decode { op := 0b0010, len := 9, buf := #v[1, 2, 3, 4, 5, 0, 0, 0, 0, 0, 0, 0, 0, 0, 0, 0] }
      = .decw 1 2 3 4 := by decide
theorem test_decode_encs : decode { op := 0b0011, a := 0xFA60, lim := 0x05A0 } = .encs 0xFA60 0x05A0 := by decide -- P3.1
theorem test_decode_decs :
    decode { op := 0b0100, buf := #v[0x0F, 0x0A, 0x06, 0, 0, 0, 0, 0, 0, 0, 0, 0, 0, 0, 0, 0] }
      = .decs 0x0F 0x0A 0x06 0x00 := by decide -- P3.5
theorem test_decode_encf :
    decode { op := 0b0101, rcpt := 1, len := 4, buf := #v[1, 4, 7, 2, 9, 9, 0, 0, 0, 0, 0, 0, 0, 0, 0, 0] }
      = .encf false 1 ⟨4, [1, 4, 7, 2]⟩ := by decide -- P1.1, with bytes beyond len
theorem test_decode_decf :
    decode { op := 0b0110, len := 3, buf := #v[0x90, 0x41, 0xFF, 0, 0, 0, 0, 0, 0, 0, 0, 0, 0, 0, 0, 0] }
      = .decf ⟨3, [0x90, 0x41, 0xFF]⟩ := by decide
theorem test_decode_decf_len_17 : decode { op := 0b0110, len := 17, buf := emptyBuf } = .decf ⟨17, []⟩ := by decide
theorem test_decode_errd : decode { op := 0b0111, skt := 2, code := 0x41, snd := 5 } = .errd 2 0x41 := by decide
theorem test_decode_sack : decode { op := 0b1000, snd := 3, skt := 2 } = .sack 3 2 := by decide -- P2.7
theorem test_decode_scmp : decode { op := 0b1001, snd := 7, skt := 15 } = .scmp 7 15 := by decide
theorem test_decode_recv :
    decode { op := 0b1010, len := 3, buf := #v[0x90, 0x41, 0xFF, 0, 0, 0, 0, 0, 0, 0, 0, 0, 0, 0, 0, 0] }
      = .recv ⟨3, [0x90, 0x41, 0xFF]⟩ := by decide -- P1.2
theorem test_decode_wstart : decode { op := 0b1011, snd := 1, skt := 1 } = .wstart 1 1 := by decide -- P4.4
theorem test_decode_wack :
    decode { op := 0b1100, len := 3, buf := #v[0xB0, 0x42, 0xFF, 0, 0, 0, 0, 0, 0, 0, 0, 0, 0, 0, 0, 0] }
      = .wack ⟨3, [0xB0, 0x42, 0xFF]⟩ := by decide -- P2.3
theorem test_decode_wtmo : decode { op := 0b1101, snd := 1, len := 3 } = .wtmo := by decide -- P4.8
theorem test_decode_illegal :
    decode { op := 0b0000 } = .illegal0 ∧ decode { op := 0b1110 } = .illegalE ∧ decode { op := 0b1111 } = .illegalF := by
  decide
theorem test_decodeTableWord_wtmo : decodeTableWord 8 0x0D = some .wtmo := by decide
theorem test_decodeTableWord_short : decodeTableWord 0 0 = none := by decide

/-! ### The step -/

theorem test_step_runs_table_word :
    answer (step (State.reset.withFetchWord 8 0x0E)) = some { status := 1, err := 10 } := by decide
theorem test_step_waits : after (step State.reset) = some State.reset := by decide
theorem test_step_reset_input :
    after (step { stateOf [(1, 1, .outstanding)] ⟨true, 1, 1⟩ with inputs := [.reset] }) = some State.reset := by decide

/-! ### Integer codec -/

theorem test_encw_IC4 : answer (exec (.encw 0xABCD) State.reset) = some
    { status := 0, olen := 4, obuf := #v[0x0A, 0x0B, 0x0C, 0x0D, 0, 0, 0, 0, 0, 0, 0, 0, 0, 0, 0, 0] } := by decide
theorem test_decw_IC7 : answer (exec (.decw 1 2 3 4) State.reset) = some { status := 0, w := 0x1234 } := by decide
theorem test_decw_IC12 : answer (exec (.decw 0x0F 0x0F 0x0F 0x1F) State.reset) = some { status := 1, err := 2 } := by
  decide
theorem test_encs_IC15 : answer (exec (.encs 0xFA60 1440) State.reset) = some -- -1440
    { status := 0, olen := 4, obuf := #v[0x0F, 0x0A, 0x06, 0x00, 0, 0, 0, 0, 0, 0, 0, 0, 0, 0, 0, 0] } := by decide
theorem test_encs_IC22 : answer (exec (.encs 0x8000 32767) State.reset) = some { status := 1, err := 9 } := by decide
theorem test_decs_IC27 : answer (exec (.decs 0x0F 0x0F 0x0F 0x0E) State.reset) = some { status := 0, w := 0xFFFE } := by
  decide
theorem test_decs_IC34 : answer (exec (.decs 0x10 0 0 0) State.reset) = some { status := 1, err := 2 } := by decide

/-! ### Packet codec and error decoder -/

theorem test_encf_F6 :
    answer (exec (.encf false 2 (.ofList [0, 1, 2, 3, 4, 5, 6, 7, 8, 9, 10, 11, 12, 13])) State.reset) = some
      { status := 0, olen := 16, obuf := #v[0x82, 0, 1, 2, 3, 4, 5, 6, 7, 8, 9, 10, 11, 12, 13, 0xFF] } := by decide
theorem test_encf_F8 : answer (exec (.encf true 5 (.ofList [1, 0, 1])) State.reset) = some
    { status := 0, olen := 5, obuf := #v[0x88, 1, 0, 1, 0xFF, 0, 0, 0, 0, 0, 0, 0, 0, 0, 0, 0] } := by decide
theorem test_decf_F12 : answer (exec (.decf (.ofList [0x90, 0x50, 0x02, 0xFF])) State.reset) = some
    { status := 0, hv := true, psnd := 1, ptype := 5, pkind := 2, olen := 2,
      obuf := #v[0x50, 0x02, 0, 0, 0, 0, 0, 0, 0, 0, 0, 0, 0, 0, 0, 0] } := by decide
theorem test_decf_F27 : answer (exec (.decf (.ofList [0xA0, 0x61, 0x02, 0xFF])) State.reset) = some
    { status := 1, err := 5, hv := true, psnd := 2, ptype := 6, pskt := 1, dsub := 6, dcode := 0x02, dskt := 1 } := by
  decide
theorem test_errd_E4 : answer (exec (.errd 5 0x03) State.reset) = some
    { status := 1, err := 5, dsub := 6, dcode := 0x03, dskt := 5 } := by decide
theorem test_errd_E1 : answer (exec (.errd 0 0x02) State.reset) = some
    { status := 1, err := 5, dsub := 1, dcode := 0x02 } := by decide

/-! ### Session state machine -/

theorem test_sack_S4_4 :
    answer (exec (.sack 2 3) (stateOf [(2, 3, .completed)] noWait)) = some { status := 0, anomaly := 2 } ∧
    after (exec (.sack 2 3) (stateOf [(2, 3, .completed)] noWait)) = some (stateOf [(2, 3, .outstanding)] noWait) := by
  decide
theorem test_sack_S7_4 :
    answer (exec (.sack 1 1) (stateOf [(1, 1, .outstanding)] ⟨false, 1, 1⟩)) = some { status := 1, err := 7 } := by decide
theorem test_scmp_S6_6 :
    answer (exec (.scmp 1 1) (stateOf [(1, 1, .outstanding), (2, 2, .completed)] ⟨true, 1, 1⟩))
      = some { status := 0, waitEnd := 1 } ∧
    after (exec (.scmp 1 1) (stateOf [(1, 1, .outstanding), (2, 2, .completed)] ⟨true, 1, 1⟩))
      = some (stateOf [(2, 2, .completed)] ⟨false, 1, 1⟩) := by decide
theorem test_scmp_S6_5 :
    answer (exec (.scmp 2 2) (stateOf [(1, 1, .outstanding), (2, 2, .outstanding)] ⟨true, 1, 1⟩)) = some { status := 0 } ∧
    after (exec (.scmp 2 2) (stateOf [(1, 1, .outstanding), (2, 2, .outstanding)] ⟨true, 1, 1⟩))
      = some (stateOf [(1, 1, .outstanding), (2, 2, .completed)] ⟨true, 1, 1⟩) := by decide
theorem test_recv_S9_8 :
    answer (exec (.recv (.ofList [0x90, 0x62, 0x41, 0xFF])) (stateOf [(1, 1, .outstanding)] ⟨true, 1, 1⟩)) = some
      { status := 1, err := 5, waitEnd := 2, hv := true, psnd := 1, ptype := 6, pskt := 2, dsub := 5, dcode := 0x41,
        dskt := 2 } ∧
    after (exec (.recv (.ofList [0x90, 0x62, 0x41, 0xFF])) (stateOf [(1, 1, .outstanding)] ⟨true, 1, 1⟩))
      = some (stateOf [(1, 1, .outstanding)] ⟨false, 1, 1⟩) := by decide
theorem test_recv_S11_3 :
    answer (exec (.recv (.ofList [0x00, 0x41, 0xFF])) (stateOf [(7, 15, .completed)] noWait)) = some
      { status := 0, hv := true, ptype := 4, pskt := 1, pkind := 1, olen := 1,
        obuf := #v[0x41, 0, 0, 0, 0, 0, 0, 0, 0, 0, 0, 0, 0, 0, 0, 0] } ∧
    after (exec (.recv (.ofList [0x00, 0x41, 0xFF])) (stateOf [(7, 15, .completed)] noWait))
      = some (stateOf [(0, 1, .outstanding), (7, 15, .completed)] noWait) := by decide
theorem test_wstart_S1_3 :
    answer (exec (.wstart 1 1) (stateOf [(1, 1, .completed)] noWait)) = some { status := 0, waitEnd := 1 } ∧
    after (exec (.wstart 1 1) (stateOf [(1, 1, .completed)] noWait)) = some State.reset := by decide
theorem test_wstart_S6_4 :
    answer (exec (.wstart 2 2) (stateOf [(1, 1, .outstanding), (2, 2, .outstanding)] ⟨true, 1, 1⟩))
      = some { status := 1, err := 9 } := by decide
theorem test_wack_S9_6 :
    answer (exec (.wack (.ofList [0x90, 0x41, 0xFF])) (stateOf [(1, 1, .outstanding)] noWait)) = some { status := 2 } ∧
    after (exec (.wack (.ofList [0x90, 0x41, 0xFF])) (stateOf [(1, 1, .outstanding)] noWait))
      = some (stateOf [(1, 1, .outstanding)] ⟨true, 1, 1⟩) := by decide
theorem test_wack_S9_3 :
    answer (exec (.wack (.ofList [0x90, 0x41, 0x00, 0xFF])) (stateOf [(1, 1, .outstanding)] noWait))
      = some { status := 1, err := 9 } := by decide
theorem test_wtmo_S7_2 :
    answer (exec .wtmo (stateOf [(1, 1, .outstanding)] ⟨true, 1, 1⟩)) = some { status := 1, err := 8, waitEnd := 3 } ∧
    after (exec .wtmo (stateOf [(1, 1, .outstanding)] ⟨true, 1, 1⟩))
      = some (stateOf [(1, 1, .outstanding)] ⟨false, 1, 1⟩) := by decide
theorem test_wtmo_S7_3 :
    answer (exec .wtmo (stateOf [(1, 1, .outstanding)] ⟨false, 1, 1⟩)) = some { status := 1, err := 9 } := by decide
theorem test_wait_bits_R24 : (WaitReg.mk true 3 2).bits = 0b00100111 := by decide

/-! ### Witnesses: for each obligation with hypotheses, values that meet them together -/

/-- One key Outstanding and awaited. -/
def waiting : State := stateOf [(1, 1, .outstanding)] ⟨true, 1, 1⟩

/-- One key Outstanding, no wait. -/
def oneOut : State := stateOf [(1, 1, .outstanding)] noWait

/-- One key Completed, no wait. -/
def oneDone : State := stateOf [(1, 1, .completed)] noWait

def ackFrame : Buffer := .ofList [0x90, 0x41, 0xFF]
def doneFrame : Buffer := .ofList [0x90, 0x51, 0xFF]
def inquiryFrame : Buffer := .ofList [0x90, 0x50, 0x02, 0xFF]
def netFrame : Buffer := .ofList [0x90, 0x38, 0xFF]
def errFrame : Buffer := .ofList [0x90, 0x62, 0x41, 0xFF]
def badErrFrame : Buffer := .ofList [0x90, 0x60, 0x03, 0x00, 0xFF]
/-- The longest frame, 16 bytes. -/
def longFrame : Buffer := .ofList [0x90, 0x30, 0, 0, 0, 0, 0, 0, 0, 0, 0, 0, 0, 0, 0, 0xFF]

theorem witness_DecodeOfEncodeIsIdentity : (Instr.decf longFrame).wf = true ∧ (Instr.decf ⟨31, []⟩).wf = true := by decide
theorem witness_UnlistedRequestFieldsAreIgnored :
    Request.sameRead { op := 0x8, snd := 1, skt := 1 } { op := 0x8, snd := 1, skt := 1, len := 7, a := 5 } :=
  ⟨rfl, rfl, rfl⟩
theorem witness_StepPerformsPresentedRequest :
    State.reset.inputs = [] ∧ (Instr.recv ackFrame).wf = true ∧
    { State.reset with inputs := [.request (encode (.recv ackFrame))] }.inputs
      = .request (encode (.recv ackFrame)) :: [] := by decide
theorem witness_ResetLeavesEveryKeyIdle : { waiting with inputs := [.reset] }.inputs = .reset :: [] := by decide
theorem witness_ResetInputKeepsConfigurationAndPorts :
    ∃ t, { waiting with inputs := [.reset] }.inputs = .reset :: [] ∧
      step { waiting with inputs := [.reset] } = .next t := ⟨_, rfl, rfl⟩
theorem witness_EncodedWordBytesDifferFromTerm :
    ∃ t r, State.reset.cfg.legal ∧ exec (.encw 0xFFFF) State.reset = .next t ∧
      t.responses = r :: State.reset.responses ∧ (0 : Fin 16).val < r.olen.toNat :=
  ⟨_, _, by decide, rfl, rfl, by decide⟩
theorem witness_DecwReassemblesOrRefuses :
    ((0x0F : Byte).extractLsb' 4 4 = 0) ∧ ¬((0x10 : Byte).extractLsb' 4 4 = 0) := by decide
theorem witness_EncsTransmitsSignedWord :
    (0x8000 : Word).toInt < 0 ∧ (0x8000 : Word).toInt.natAbs ≤ (32768 : Word).toNat ∧
    0 ≤ (0x7FFF : Word).toInt ∧ (0x7FFF : Word).toInt.natAbs ≤ (32767 : Word).toNat ∧
    (32767 : Word).toNat < (0x8000 : Word).toInt.natAbs := by decide
theorem witness_EncsTransmitsTwosComplement : (0x8000 : Word).toInt.natAbs ≤ (32768 : Word).toNat := by decide
theorem witness_DecsRecoversSignedValue :
    (0x0F : Byte).extractLsb' 4 4 = 0 ∧ (0x8000 : Word).getLsbD 15 = true ∧ (0x7FFF : Word).getLsbD 15 = false ∧
    ¬((0x10 : Byte).extractLsb' 4 4 = 0) := by decide
theorem witness_DecsInvertsEncs : (0xFFFF : Word).toInt.natAbs ≤ (1 : Word).toNat := by decide
theorem witness_EncfBuildsFrame :
    (Buffer.ofList [1]).wf = true ∧ (Buffer.ofList [1]).len.toNat = 1 ∧
    (Buffer.ofList [0, 1, 2, 3, 4, 5, 6, 7, 8, 9, 10, 11, 12, 13]).wf = true ∧
    (Buffer.ofList [0, 1, 2, 3, 4, 5, 6, 7, 8, 9, 10, 11, 12, 13]).len.toNat = 14 ∧
    (Buffer.mk 0 []).wf = true ∧ (Buffer.ofList [0, 1, 2, 3, 4, 5, 6, 7, 8, 9, 10, 11, 12, 13, 14]).wf = true := by decide
theorem witness_TermFreePayloadGivesReadableFrame :
    (Buffer.ofList [1, 4, 7, 2]).wf = true ∧ (Buffer.ofList [1, 4, 7, 2]).termFree State.reset.cfg ∧
    (0x80 ||| (1 : DevId).zeroExtend 8 : Byte) ≠ State.reset.cfg.term := by decide
theorem witness_DecfRefusesBadFraming :
    (Buffer.ofList [0x90, 0xFF]).len.toNat < 3 ∧ 16 < (Buffer.mk 17 []).len.toNat ∧
    (Buffer.ofList [0x90, 0x41, 0]).bytes.getD 2 0 ≠ State.reset.cfg.term := by decide
theorem witness_DecfDrivesHeaderOnceFramed :
    Framed State.reset.cfg ackFrame ∧ Framed State.reset.cfg longFrame ∧
    ¬Framed State.reset.cfg (.ofList [0x90, 0xFF]) := by decide
theorem witness_DecfReportsNetworkChange :
    Framed State.reset.cfg netFrame ∧ IsNetChange State.reset.cfg netFrame := by decide
theorem witness_DecfRaisesOnErrorFrames :
    (Framed State.reset.cfg errFrame ∧ ¬IsNetChange State.reset.cfg errFrame ∧
      (errFrame.bytes.getD 1 0).extractLsb' 4 4 = 6 ∧ errFrame.len.toNat = 4) ∧
    (Framed State.reset.cfg badErrFrame ∧ ¬IsNetChange State.reset.cfg badErrFrame ∧
      (badErrFrame.bytes.getD 1 0).extractLsb' 4 4 = 6 ∧ badErrFrame.len.toNat ≠ 4) := by decide
theorem witness_DecfGivesParsedReply :
    (ackFrame.wf = true ∧ Framed State.reset.cfg ackFrame ∧ ¬IsNetChange State.reset.cfg ackFrame ∧
      (ackFrame.bytes.getD 1 0).extractLsb' 4 4 ≠ 6) ∧
    (longFrame.wf = true ∧ Framed State.reset.cfg longFrame ∧ ¬IsNetChange State.reset.cfg longFrame ∧
      (longFrame.bytes.getD 1 0).extractLsb' 4 4 ≠ 6) := by decide
theorem witness_DecfInvertsEncf :
    (Buffer.ofList [0x41]).wf = true ∧ (Buffer.ofList [0x41]).len.toNat = 1 ∧
    ((Buffer.ofList [0x41]).bytes.getD 0 0).extractLsb' 4 4 ≠ 6 ∧
    (Buffer.ofList [0x41]).bytes.getD 0 0 ≠ State.reset.cfg.netchg := by decide
theorem witness_SackFollowsSessionTable :
    (1 : Socket) ≠ 0 ∧ State.reset.cell 1 1 = .idle ∧ oneDone.cell 1 1 = .completed ∧
    oneOut.cell 1 1 = .outstanding ∧ oneOut.wait.v = false ∧
    waiting.cell 1 1 = .outstanding ∧ waiting.wait.v = true := by decide
theorem witness_ScmpFollowsSessionTable :
    (1 : Socket) ≠ 0 ∧ State.reset.cell 1 1 ≠ .outstanding ∧ waiting.cell 1 1 = .outstanding ∧
    waiting.wait = ⟨true, 1, 1⟩ ∧ oneOut.cell 1 1 = .outstanding ∧ oneOut.wait ≠ ⟨true, 1, 1⟩ := by decide
theorem witness_EventsMoveKeysByTheTable :
    Feeds State.reset.cfg (.sack 1 1) .ack 1 1 ∧ Feeds State.reset.cfg (.scmp 7 15) .cmpl 7 15 ∧
    Feeds State.reset.cfg (.recv ackFrame) .ack 1 1 ∧ Feeds State.reset.cfg (.recv doneFrame) .cmpl 1 1 :=
  ⟨.inl ⟨rfl, rfl⟩, .inr (.inl ⟨rfl, rfl⟩), .inr (.inr ⟨ackFrame, rfl, by decide⟩),
    .inr (.inr ⟨doneFrame, rfl, by decide⟩)⟩
theorem witness_RecvIsDecfThenRouting :
    (answer (exec (.decf errFrame) waiting)).map (·.status) = some 1 ∧
    (answer (exec (.decf ackFrame) State.reset)).map (fun r => (r.status, r.ptype)) = some (0, 4) ∧
    (answer (exec (.decf doneFrame) waiting)).map (fun r => (r.status, r.ptype)) = some (0, 5) ∧
    (answer (exec (.decf longFrame) waiting)).map (fun r => (r.status, r.ptype)) = some (0, 3) := by decide
theorem witness_RecvOfUntrackedReplyOnlyParses :
    (Framed waiting.cfg inquiryFrame ∧ ¬IsNetChange waiting.cfg inquiryFrame ∧
      (inquiryFrame.bytes.getD 1 0).extractLsb' 4 4 ≠ 6 ∧ (inquiryFrame.bytes.getD 1 0).extractLsb' 0 4 = 0) ∧
    (Framed waiting.cfg longFrame ∧ ¬IsNetChange waiting.cfg longFrame ∧
      (longFrame.bytes.getD 1 0).extractLsb' 4 4 = 3) := by decide
theorem witness_RecvErrorFramesChangeNoCell :
    waiting.wait.v = true ∧ (Framed waiting.cfg netFrame ∧ IsNetChange waiting.cfg netFrame) ∧
    (Framed waiting.cfg errFrame ∧ (errFrame.bytes.getD 1 0).extractLsb' 4 4 = 6) := by decide
theorem witness_WstartFollowsItsRule :
    waiting.wait.v = true ∧ State.reset.cell 1 1 = .idle ∧
    (oneDone.wait.v = false ∧ (1 : Socket) ≠ 0 ∧ oneDone.cell 1 1 = .completed) ∧
    (oneOut.wait.v = false ∧ oneOut.cell 1 1 = .outstanding) := by decide
theorem witness_WackChecksThenStartsWait :
    (ackFrame.len.toNat = 3 ∧ (ackFrame.bytes.getD 1 0).extractLsb' 4 4 = 4) ∧
    ¬(doneFrame.len.toNat = 3 ∧ (doneFrame.bytes.getD 1 0).extractLsb' 4 4 = 4) := by decide
theorem witness_WackStartsOrFinishesWait :
    ackFrame.len.toNat = 3 ∧ (ackFrame.bytes.getD 1 0).extractLsb' 4 4 = 4 ∧
    (ackFrame.bytes.getD 0 0).extractLsb' 4 3 = 1 ∧ (ackFrame.bytes.getD 1 0).extractLsb' 0 4 = 1 ∧
    oneOut.wait.v = false ∧ (1 : Socket) ≠ 0 ∧ oneOut.cell 1 1 = .outstanding ∧
    oneDone.wait.v = false ∧ oneDone.cell 1 1 = .completed := by decide
theorem witness_SecondWaitIsRefused :
    waiting.wait.v = true ∧ (Instr.wstart 1 1).startsWait = true ∧ (Instr.wack ackFrame).startsWait = true := by decide
theorem witness_WtmoEndsWaitWithTimeout : waiting.wait.v = true ∧ oneOut.wait.v = false := by decide
theorem witness_IllegalOpsChangeNothing :
    ({ op := 0x0 } : Request).op = 0x0 ∧ ({ op := 0xE } : Request).op = 0xE ∧ ({ op := 0xF } : Request).op = 0xF := by
  decide
theorem witness_WaitRegisterLayoutAndAccess :
    ∃ t, exec (.wstart 1 1) oneOut = .next t ∧ t.wait.v ≠ oneOut.wait.v ∧ t.wait.snd ≠ oneOut.wait.snd :=
  ⟨_, rfl, by decide, by decide⟩
theorem witness_PureOperationsIgnoreAndKeepState :
    (Instr.errd 2 0x41).isPure = true ∧ waiting.cfg = State.reset.cfg := by decide
theorem witness_NoRequestChangesConfiguration : ∃ t, exec (.recv ackFrame) State.reset = .next t := ⟨_, rfl⟩
theorem witness_SocketZeroIsNeverWritten :
    (∃ t, exec (.sack 7 0) waiting = .next t) ∧ (∀ snd : DevId, waiting.cell snd 0 = .idle) ∧
    ∃ t, step { waiting with inputs := [.request (encode (.sack 7 0))] } = .next t := ⟨⟨_, rfl⟩, by decide, _, rfl⟩
/-- Each key form writes its own cell (the last sender and socket among them), and WTMO has no key. -/
theorem witness_RequestsWriteOnlyTheirOwnKey :
    (∃ t, exec (.sack 7 15) State.reset = .next t ∧ (Instr.sack 7 15).sessionKey = some (7, 15) ∧
      t.cell 7 15 = .outstanding) ∧
    (∃ t, exec (.scmp 1 1) oneOut = .next t ∧ (Instr.scmp 1 1).sessionKey = some (1, 1) ∧ t.cell 1 1 = .completed) ∧
    (∃ t, exec (.recv (.ofList [0xF0, 0x4F, 0xFF])) State.reset = .next t ∧
      (Instr.recv (.ofList [0xF0, 0x4F, 0xFF])).sessionKey = some (7, 15) ∧ t.cell 7 15 = .outstanding) ∧
    (∃ t, exec (.wstart 1 1) oneDone = .next t ∧ (Instr.wstart 1 1).sessionKey = some (1, 1) ∧ t.cell 1 1 = .idle) ∧
    (∃ t, exec (.wack ackFrame) oneDone = .next t ∧ (Instr.wack ackFrame).sessionKey = some (1, 1) ∧
      t.cell 1 1 = .idle) ∧
    (∃ t, exec .wtmo waiting = .next t ∧ Instr.wtmo.sessionKey = none) :=
  ⟨⟨_, rfl, rfl, by decide⟩, ⟨_, rfl, rfl, by decide⟩, ⟨_, rfl, by decide, by decide⟩, ⟨_, rfl, rfl, by decide⟩,
    ⟨_, rfl, by decide, by decide⟩, ⟨_, rfl, rfl⟩⟩
theorem witness_FailingRequestKeepsState :
    (∃ t r, exec (.sack 1 1) waiting = .next t ∧ t.responses = r :: waiting.responses ∧ r.status = 1 ∧
      waiting.wait.v = true ∧ (Instr.sack 1 1).feedsEvents = true) ∧
    (∃ t r, exec .wtmo waiting = .next t ∧ t.responses = r :: waiting.responses ∧ r.status = 1) ∧
    (∃ t r, exec (.errd 0 0) waiting = .next t ∧ t.responses = r :: waiting.responses ∧ r.status = 1) :=
  ⟨⟨_, _, rfl, rfl, by decide, by decide, by decide⟩, ⟨_, _, rfl, rfl, by decide⟩, ⟨_, _, rfl, rfl, by decide⟩⟩
theorem witness_PendingWaitEndsInFourWays :
    ∃ t, ({ waiting with inputs := [.request (encode (.recv doneFrame))] } : State).wait.v = true ∧
      step { waiting with inputs := [.request (encode (.recv doneFrame))] } = .next t ∧ t.wait ≠ waiting.wait :=
  ⟨_, by decide, rfl, by decide⟩
theorem witness_PendingStatusMeansWaitStarted :
    ∃ t r, exec (.wstart 1 1) oneOut = .next t ∧ t.responses = r :: oneOut.responses ∧ r.status = 2 :=
  ⟨_, _, rfl, rfl, by decide⟩
/-- A state with a wait pending that meets the session invariant, and a step of it that ends the wait. -/
theorem witness_SessionInvariantKeptByEveryStep :
    waiting.SessionInv ∧ ∃ t, step { waiting with inputs := [.request (encode (.recv doneFrame))] } = .next t :=
  ⟨⟨by decide, by decide⟩, _, rfl⟩
theorem witness_ResponsesStayWellFormed :
    waiting.ResponsesWellFormed ∧ ∃ t, step { waiting with inputs := [.request (encode (.recv errFrame))] } = .next t :=
  ⟨by intro r h; simp [show waiting.responses = [] from rfl] at h, _, rfl⟩
theorem witness_OtherKeysDoNotMatter :
    oneOut.cell 1 1 = (stateOf [(1, 1, .outstanding), (2, 2, .completed)] noWait).cell 1 1 ∧
    oneOut.wait = (stateOf [(1, 1, .outstanding), (2, 2, .completed)] noWait).wait := by decide
theorem witness_AckCompletionConsumeInBothOrders :
    (15 : Socket) ≠ 0 ∧ oneOut.cell 7 15 = .idle ∧ oneOut.wait.v = false := by decide
theorem witness_TimedOutKeyStaysOutstanding : waiting.SessionInv ∧ waiting.wait.v = true :=
  ⟨⟨by decide, by decide⟩, by decide⟩
theorem witness_ConsumeWithTimeoutAlwaysEnds :
    (1 : Socket) ≠ 0 ∧ oneOut.cell 1 1 ≠ .idle ∧ oneOut.wait.v = false ∧
    WaitEvent.timeout ∈ [WaitEvent.frame inquiryFrame, .timeout] := by decide
theorem witness_ConsumeRemovesEntryExactlyWhenDone :
    (∃ t, oneOut.cell 1 1 ≠ .idle ∧ oneOut.wait.v = false ∧
      consumeCompletion 1 1 [.frame doneFrame] oneOut = .next t ∧ t.lastResponse.waitEnd = 1) ∧
    (∃ t, consumeCompletion 1 1 [.timeout] oneOut = .next t ∧ t.lastResponse.waitEnd ≠ 1) :=
  ⟨⟨_, by decide, by decide, rfl, by decide⟩, ⟨_, rfl, by decide⟩⟩

end Sys2Proof.Tests
end

section
namespace Sys2Proof.Machine

/-! ## What a request can do

Every request ends in one response `r` over a state `u`, and `RequestEffect` lists the ways `u` can differ from the
state before. The proofs about all requests are case splits over this list. -/

/-- The ways a request `i` can act on `s`: `u` is the state it leaves but for the response `r` it gives. The events are
those of 43_session.md R150 to R153, the waits those of R160 to R163 and R170. -/
inductive RequestEffect (i : Instr) (s : State) : State → Response → Prop where
  /-- Status OK, and nothing changes. -/
  | answer {r : Response} : r.status = 0 → r.waitEnd = 0 → RequestEffect i s s r
  /-- An error, and nothing changes: no wait that the error would end is pending. -/
  | refuse {r : Response} : (s.wait.v = true → i.feedsEvents = false ∧ i ≠ .wtmo) →
      r.status = 1 → r.waitEnd = 0 → RequestEffect i s s r
  /-- An error that aborts the pending wait (R153). -/
  | abort {r : Response} : i.feedsEvents = true → s.wait.v = true →
      r.status = 1 → r.waitEnd = 2 → RequestEffect i s s.clearWait r
  /-- The timeout of the pending wait (R170). -/
  | timeOut {r : Response} : i = .wtmo → s.wait.v = true →
      r.status = 1 → r.err = 8 → r.waitEnd = 3 → RequestEffect i s s.clearWait r
  /-- An ACK makes its key Outstanding (R150). -/
  | track {snd : DevId} {skt : Socket} {r : Response} : Feeds s.cfg i .ack snd skt → skt ≠ 0 →
      s.cell snd skt ≠ .outstanding →
      r.status = 0 → r.waitEnd = 0 → RequestEffect i s (s.setCell snd skt .outstanding) r
  /-- A Completion of an Outstanding key that is not awaited (R150). -/
  | complete {snd : DevId} {skt : Socket} {r : Response} : Feeds s.cfg i .cmpl snd skt → skt ≠ 0 →
      s.cell snd skt = .outstanding → s.awaits snd skt = false →
      r.status = 0 → r.waitEnd = 0 → RequestEffect i s (s.setCell snd skt .completed) r
  /-- A Completion of the awaited key: it is consumed and the wait ends (R152). -/
  | consumeAwaited {snd : DevId} {skt : Socket} {r : Response} : Feeds s.cfg i .cmpl snd skt → skt ≠ 0 →
      s.cell snd skt = .outstanding → s.awaits snd skt = true →
      r.status = 0 → r.waitEnd = 1 → RequestEffect i s (s.setCell snd skt .idle).clearWait r
  /-- A wait on a Completed key consumes it at once (R163). -/
  | consumeCompleted {snd : DevId} {skt : Socket} {r : Response} : i.startsWait = true →
      i.sessionKey = some (snd, skt) → s.wait.v = false → skt ≠ 0 → s.cell snd skt = .completed →
      r.status = 0 → r.waitEnd = 1 → RequestEffect i s (s.setCell snd skt .idle) r
  /-- A wait on an Outstanding key starts (R160). -/
  | beginWait {snd : DevId} {skt : Socket} {r : Response} : i.startsWait = true →
      i.sessionKey = some (snd, skt) → s.wait.v = false → skt ≠ 0 → s.cell snd skt = .outstanding →
      r.status = 2 → r.waitEnd = 0 → RequestEffect i s (s.beginWait snd skt) r

/-- The result `o` of the request `i` in `s` is a next state, reached in one of the listed ways. -/
def HasEffect (i : Instr) (s : State) (o : Result) : Prop :=
  ∃ u r, o = .next (u.respond r) ∧ RequestEffect i s u r

section Endings
variable {i : Instr} {r : Response} {s : State}

theorem finish_hasEffect (hw : r.waitEnd = 0) : HasEffect i s (finish r s) :=
  ⟨s, r.finish, rfl, .answer rfl hw⟩

/-- An error of an operation that ends no wait. -/
theorem fail_hasEffect (hn : s.wait.v = true → i.feedsEvents = false ∧ i ≠ .wtmo) (hs : r.status = 1)
    (hw : r.waitEnd = 0) : HasEffect i s (fail r s) :=
  ⟨s, r, rfl, .refuse hn hs hw⟩

/-- An error of SACK, SCMP or RECV (43_session.md R153). -/
theorem failSession_hasEffect (hi : i.feedsEvents = true) (hs : r.status = 1) (hw : r.waitEnd = 0) :
    HasEffect i s (failSession r s) := by
  cases hv : s.wait.v with
  | true => exact ⟨_, _, failSession_next.2 (.inl ⟨hv, rfl⟩), .abort hi hv hs rfl⟩
  | false => exact ⟨_, _, failSession_next.2 (.inr ⟨hv, rfl⟩), .refuse (by simp [hv]) hs hw⟩

theorem completeKey_hasEffect {snd : DevId} {skt : Socket} (hf : Feeds s.cfg i .cmpl snd skt) (h0 : skt ≠ 0)
    (hc : s.cell snd skt = .outstanding) (hw : r.waitEnd = 0) : HasEffect i s (completeKey snd skt r s) := by
  cases ha : s.awaits snd skt with
  | true => exact ⟨_, _, completeKey_next.2 (.inl ⟨ha, rfl⟩), .consumeAwaited hf h0 hc ha rfl rfl⟩
  | false => exact ⟨_, _, completeKey_next.2 (.inr ⟨ha, rfl⟩), .complete hf h0 hc ha rfl hw⟩
end Endings

section Classes
variable {i : Instr}

/-- A pure operation is none of those that end a wait. -/
theorem Instr.endsNoWait_of_isPure (hi : i.isPure = true) : i.feedsEvents = false ∧ i ≠ .wtmo := by
  cases i <;> simp_all [Instr.isPure, Instr.feedsEvents]

/-- WSTART and WACK are none of those that end a wait. -/
theorem Instr.endsNoWait_of_startsWait (hi : i.startsWait = true) : i.feedsEvents = false ∧ i ≠ .wtmo := by
  cases i <;> simp_all [Instr.startsWait, Instr.feedsEvents]

/-- Only SACK, SCMP and RECV feed an event. -/
theorem Feeds.feedsEvents {c : Config} {ev : Event} {snd : DevId} {skt : Socket}
    (h : Feeds c i ev snd skt) : i.feedsEvents = true := by
  obtain ⟨rfl, -⟩ | ⟨rfl, -⟩ | ⟨f, rfl, -⟩ := h <;> rfl
end Classes

theorem sessionUpdate_hasEffect {i : Instr} {ev : Event} {snd : DevId} {skt : Socket} {r : Response} {s : State}
    (hf : Feeds s.cfg i ev snd skt) (hw : r.waitEnd = 0) : HasEffect i s (sessionUpdate ev snd skt r s) := by
  unfold sessionUpdate
  split_ifs with h0
  · exact finish_hasEffect hw
  cases ev with
  | ack =>
    cases hc : s.cell snd skt with
    | idle => exact ⟨_, _, rfl, .track hf h0 (by simp [hc]) rfl hw⟩
    | outstanding => exact failSession_hasEffect hf.feedsEvents rfl hw
    | completed => exact ⟨_, _, rfl, .track hf h0 (by simp [hc]) rfl hw⟩
  | cmpl =>
    cases hc : s.cell snd skt with
    | idle => exact finish_hasEffect hw
    | outstanding => exact completeKey_hasEffect hf h0 hc hw
    | completed => exact finish_hasEffect hw

theorem startWait_hasEffect {i : Instr} {snd : DevId} {skt : Socket} {s : State} (hi : i.startsWait = true)
    (hk : i.sessionKey = some (snd, skt)) : HasEffect i s (startWait snd skt s) := by
  have hn := Instr.endsNoWait_of_startsWait hi
  unfold startWait
  split_ifs with hv h0
  · exact fail_hasEffect (fun _ => hn) rfl rfl
  · exact fail_hasEffect (fun _ => hn) rfl rfl
  have hv : s.wait.v = false := Bool.eq_false_of_not_eq_true hv
  cases hc : s.cell snd skt with
  | idle => exact fail_hasEffect (fun _ => hn) rfl rfl
  | completed => exact ⟨_, _, rfl, .consumeCompleted hi hk hv h0 hc rfl rfl⟩
  | outstanding => exact ⟨_, _, rfl, .beginWait hi hk hv h0 hc rfl rfl⟩

/-- Every error of the frame decoder is a response of status ERR that ends no wait. -/
theorem decodeFrame_error {c : Config} {f : Buffer} {r : Response} (h : decodeFrame c f = .error r) :
    r.status = 1 ∧ r.waitEnd = 0 := by
  obtain ⟨-, hd⟩ | ⟨-, ⟨-, hd⟩ | ⟨-, ⟨-, -, hd⟩ | ⟨-, -, hd⟩ | ⟨-, hd⟩⟩⟩ := decodeFrame_cases c f <;>
    cases hd.symm.trans h <;> exact ⟨rfl, rfl⟩

/-- A parsed reply comes from a framed buffer that is no network change, and carries its header fields. -/
theorem decodeFrame_ok {c : Config} {f : Buffer} {r : Response} (h : decodeFrame c f = .ok r) :
    Framed c f ∧ ¬IsNetChange c f ∧ r.HasHeaderOf f ∧ r.waitEnd = 0 := by
  obtain ⟨-, hd⟩ | ⟨hfr, ⟨-, hd⟩ | ⟨hnc, ⟨-, -, hd⟩ | ⟨-, -, hd⟩ | ⟨-, hd⟩⟩⟩ := decodeFrame_cases c f <;>
    cases hd.symm.trans h
  exact ⟨hfr, hnc, ⟨rfl, rfl, rfl, rfl, rfl, rfl⟩, rfl⟩

theorem execRecv_hasEffect (f : Buffer) (s : State) : HasEffect (.recv f) s (execRecv f s) := by
  unfold execRecv
  cases hd : decodeFrame s.cfg f with
  | error r =>
    obtain ⟨hs, hw⟩ := decodeFrame_error hd
    exact failSession_hasEffect rfl hs hw
  | ok r =>
    obtain ⟨hfr, hnc, ⟨-, hsnd, -, -, htype, hskt⟩, hw⟩ := decodeFrame_ok hd
    dsimp only [routeReply]
    split_ifs with hack hcmpl
    · exact sessionUpdate_hasEffect (.inr (.inr ⟨f, rfl, hfr, hnc, hsnd, hskt, htype.symm.trans hack⟩)) hw
    · exact sessionUpdate_hasEffect (.inr (.inr ⟨f, rfl, hfr, hnc, hsnd, hskt, htype.symm.trans hcmpl⟩)) hw
    · exact finish_hasEffect hw

theorem execWack_hasEffect (f : Buffer) (s : State) : HasEffect (.wack f) s (execWack f s) := by
  unfold execWack
  split_ifs
  · exact fail_hasEffect (fun _ => ⟨rfl, nofun⟩) rfl rfl
  · exact startWait_hasEffect rfl rfl

theorem execWtmo_hasEffect (s : State) : HasEffect .wtmo s (execWtmo s) := by
  unfold execWtmo
  split_ifs with hv
  · exact ⟨_, _, rfl, .timeOut rfl hv rfl rfl rfl⟩
  · exact fail_hasEffect (fun hv' => absurd hv' hv) rfl rfl

/-- A pure operation answers OK or with an error of its own, and changes nothing. -/
theorem pure_hasEffect {i : Instr} (hi : i.isPure = true) (s : State) : HasEffect i s (exec i s) := by
  have hfail {r : Response} : r.status = 1 → r.waitEnd = 0 → HasEffect i s (fail r s) :=
    fail_hasEffect fun _ => Instr.endsNoWait_of_isPure hi
  cases i with
  | encw => exact finish_hasEffect rfl
  | decw | encs | decs | encf =>
    dsimp only [exec, execDecw, execEncs, execDecs, execEncf]
    split
    · exact hfail rfl rfl
    · exact finish_hasEffect rfl
  | decf f =>
    dsimp only [exec, execDecf]
    cases hd : decodeFrame s.cfg f with
    | error r =>
      obtain ⟨hs, hw⟩ := decodeFrame_error hd
      exact hfail hs hw
    | ok r =>
      obtain ⟨-, -, -, hw⟩ := decodeFrame_ok hd
      exact finish_hasEffect hw
  | errd | illegal0 | illegalE | illegalF => exact hfail rfl rfl
  | sack | scmp | recv | wstart | wack | wtmo => cases hi

/-- Every request ends in a next state with one response, in one of the listed ways. -/
theorem exec_hasEffect (i : Instr) (s : State) : HasEffect i s (exec i s) := by
  cases i with
  | sack snd skt => exact sessionUpdate_hasEffect (.inl ⟨rfl, rfl⟩) rfl
  | scmp snd skt => exact sessionUpdate_hasEffect (.inr (.inl ⟨rfl, rfl⟩)) rfl
  | recv f => exact execRecv_hasEffect f s
  | wstart snd skt => exact startWait_hasEffect rfl rfl
  | wack f => exact execWack_hasEffect f s
  | wtmo => exact execWtmo_hasEffect s
  | encw | decw | encs | decs | encf | decf | errd | illegal0 | illegalE | illegalF => exact pure_hasEffect rfl s

/-- The inversion of a request: the state it leaves is one of the listed ones, with its response in front. -/
theorem exec_next {i : Instr} {s t : State} (h : exec i s = .next t) :
    ∃ u r, t = u.respond r ∧ RequestEffect i s u r := by
  obtain ⟨u, r, hu, he⟩ := exec_hasEffect i s
  exact ⟨u, r, Host.Outcome.next.inj (h.symm.trans hu), he⟩

/-! ## What every request keeps -/

/-- A write to a tracked socket's cell is no write to socket 0. -/
theorem State.setCell_cell_socketZero (s : State) (snd a : DevId) {skt : Socket} (st : SessSt) (h0 : skt ≠ 0) :
    (s.setCell snd skt st).cell a 0 = s.cell a 0 :=
  State.setCell_cell_other _ _ _ _ fun h => h0 (congrArg Prod.snd h).symm

namespace RequestEffect
variable {i : Instr} {s u : State} {r : Response}

theorem cfg_eq (h : RequestEffect i s u r) : u.cfg = s.cfg := by
  cases h <;> rfl

/-- Every write of the session table is to a tracked socket (10_state.md R22). -/
theorem cell_socketZero (h : RequestEffect i s u r) (a : DevId) : u.cell a 0 = s.cell a 0 := by
  cases h with
  | answer | refuse | abort | timeOut | beginWait => rfl
  | track _ h0 | complete _ h0 | consumeCompleted _ _ _ h0 => exact s.setCell_cell_socketZero _ a _ h0
  | consumeAwaited _ h0 => exact s.setCell_cell_socketZero _ a _ h0

/-- `WAIT.V` changes only by an event, a wait's start or WTMO (10_state.md R24). -/
theorem wait_v_writer (h : RequestEffect i s u r) (hv : u.wait.v ≠ s.wait.v) :
    i.feedsEvents = true ∨ i.startsWait = true ∨ i = .wtmo := by
  cases h with
  | answer | refuse | track | complete | consumeCompleted => exact absurd rfl hv
  | abort hi => exact .inl hi
  | consumeAwaited hf => exact .inl hf.feedsEvents
  | beginWait hi => exact .inr (.inl hi)
  | timeOut hi => exact .inr (.inr hi)

/-- `WAIT.SND` and `WAIT.SKT` change only where a wait starts (10_state.md R24). -/
theorem wait_key_written (h : RequestEffect i s u r) (hk : u.wait.snd ≠ s.wait.snd ∨ u.wait.skt ≠ s.wait.skt) :
    s.wait.v = false ∧ u.wait.v = true := by
  cases h with
  | beginWait _ _ hv => exact ⟨hv, rfl⟩
  | answer | refuse | abort | timeOut | track | complete | consumeAwaited | consumeCompleted => simp at hk

/-- The awaited key stays Outstanding while its wait is pending: the only writes of another status to an Outstanding
cell are a Completion of a key not awaited, and the one that ends the wait. -/
theorem awaitedOutstanding (h : RequestEffect i s u r) (hinv : s.SessionInv) (hv : u.wait.v = true) :
    u.wait.skt ≠ 0 ∧ u.cell u.wait.snd u.wait.skt = .outstanding := by
  cases h with
  | answer | refuse => exact hinv.awaitedOutstanding hv
  | abort | timeOut | consumeAwaited => simp at hv
  | track =>
    obtain ⟨hskt, hout⟩ := hinv.awaitedOutstanding hv
    exact ⟨hskt, by simp [State.setCell_cell, hout]⟩
  | @complete snd skt _ _ _ _ ha =>
    obtain ⟨hskt, hout⟩ := hinv.awaitedOutstanding hv
    have hother : (s.wait.snd, s.wait.skt) ≠ (snd, skt) := by
      rintro ⟨⟩
      exact absurd ((s.awaits_iff _ _).2 ⟨hv, rfl, rfl⟩) (by simp [ha])
    exact ⟨hskt, (State.setCell_cell_other _ _ _ _ hother).trans hout⟩
  | consumeCompleted _ _ hv' => exact absurd (hv'.symm.trans hv) nofun
  | beginWait _ _ _ h0 hc => exact ⟨h0, hc⟩

theorem sessionInv (h : RequestEffect i s u r) (hinv : s.SessionInv) : u.SessionInv where
  socketZeroIdle snd := (h.cell_socketZero snd).trans (hinv.socketZeroIdle snd)
  awaitedOutstanding := h.awaitedOutstanding hinv

end RequestEffect

/-! ## The step and the invariant -/

/-- A property that the reset input establishes and every request keeps is kept by every step, where taking the input
from the port does not matter to it. -/
theorem step_preserves {P : State → Prop} (hport : ∀ s rest, P s → P { s with inputs := rest })
    (hreset : ∀ s : State, P s.assertReset) (hexec : ∀ i s t, P s → exec i s = .next t → P t)
    {s t : State} (hs : P s) (h : step s = .next t) : P t := by
  obtain ⟨-, hstep⟩ | ⟨rest, -, hstep⟩ | ⟨q, rest, -, hstep⟩ := step_cases s
  · cases hstep.symm.trans h
    exact hs
  · cases hstep.symm.trans h
    exact hreset _
  · exact hexec _ _ _ (hport s rest hs) (hstep.symm.trans h)

theorem step_of_reset {s : State} {rest : List Input} (h : s.inputs = .reset :: rest) :
    step s = .next (State.assertReset { s with inputs := rest }) := by
  simp [step, State.arrival, h]

theorem exec_cell_socketZero {i : Instr} {s t : State} (h : exec i s = .next t) (snd : DevId) :
    t.cell snd 0 = s.cell snd 0 := by
  obtain ⟨u, r, rfl, he⟩ := exec_next h
  exact he.cell_socketZero snd

theorem exec_sessionInv {i : Instr} {s t : State} (hinv : s.SessionInv) (h : exec i s = .next t) :
    t.SessionInv := by
  obtain ⟨u, r, rfl, he⟩ := exec_next h
  obtain ⟨hzero, hwait⟩ := he.sessionInv hinv
  exact ⟨hzero, hwait⟩

theorem State.assertReset_sessionInv (s : State) : s.assertReset.SessionInv :=
  ⟨fun snd => s.assertReset_cell snd 0, nofun⟩

/-! The reset state is what the reset input makes of it. -/

theorem State.reset_sessionInv : State.reset.SessionInv :=
  State.reset.assertReset_sessionInv

theorem State.reset_cell (snd : DevId) (skt : Socket) : State.reset.cell snd skt = .idle :=
  State.reset.assertReset_cell snd skt

/-! ## The 8-bit form of WAIT (10_state.md R24) -/

namespace WaitReg

/-- Bit by bit: `V`, then `SND`, then `SKT`. -/
theorem bits_getLsbD (w : WaitReg) (k : Nat) : w.bits.getLsbD k =
    if k < 1 then (BitVec.ofBool w.v).getLsbD k
    else if k - 1 < 3 then w.snd.getLsbD (k - 1) else w.skt.getLsbD (k - 1 - 3) := by
  rw [← BitVec.getLsbD_append]
  exact BitVec.getLsbD_append

theorem bits_getLsbD_zero (w : WaitReg) : w.bits.getLsbD 0 = w.v :=
  (w.bits_getLsbD 0).trans (by simp)

theorem bits_extract_snd (w : WaitReg) : w.bits.extractLsb' 1 3 = w.snd := by
  ext i hi
  simp [bits_getLsbD, hi]

theorem bits_extract_skt (w : WaitReg) : w.bits.extractLsb' 4 4 = w.skt := by
  ext i hi
  simp [bits_getLsbD, BitVec.getLsbD_eq_getElem hi]

theorem ofBits_bits (w : WaitReg) : WaitReg.ofBits w.bits = w := by
  rw [WaitReg.ofBits, bits_getLsbD_zero, bits_extract_snd, bits_extract_skt]

theorem bits_ofBits (b : BitVec 8) : (WaitReg.ofBits b).bits = b := by
  apply BitVec.eq_of_getLsbD_eq
  intro k hk
  rw [bits_getLsbD]
  split_ifs with h1 h3
  · simp [WaitReg.ofBits, show k = 0 by omega]
  · simp [WaitReg.ofBits, h3, show 1 + (k - 1) = k by omega]
  · simp [WaitReg.ofBits, show k - 1 - 3 < 4 by omega, show 4 + (k - 1 - 3) = k by omega]

end WaitReg

/-! ## The obligations of 10_state.md -/

/-- Settles O48: the reset input establishes the invariant and every way a request can act keeps it. -/
theorem sessionInvariantKeptByEveryStep : Obligations.SessionInvariantKeptByEveryStep :=
  fun _ _ hinv hstep => step_preserves (P := State.SessionInv)
    (fun _ _ ⟨hzero, hwait⟩ => ⟨hzero, hwait⟩) State.assertReset_sessionInv
    (fun _ _ _ hinv h => exec_sessionInv hinv h) hinv hstep

/-- Settles O39: the layout bit by bit, the access by the list of what a request can do. -/
theorem waitRegisterLayoutAndAccess : Obligations.WaitRegisterLayoutAndAccess := by
  refine ⟨fun w => ⟨w.bits_getLsbD_zero, w.bits_extract_snd, w.bits_extract_skt, w.ofBits_bits⟩,
    WaitReg.bits_ofBits, fun i s t h => ?_⟩
  obtain ⟨u, r, rfl, he⟩ := exec_next h
  exact ⟨he.wait_v_writer, he.wait_key_written⟩

/-- Settles O42: no way a request can act touches the configuration. -/
theorem noRequestChangesConfiguration : Obligations.NoRequestChangesConfiguration := by
  intro i s t h
  obtain ⟨u, r, rfl, he⟩ := exec_next h
  exact he.cfg_eq

/-- Settles O43: every write is to a tracked socket, and reset makes every cell Idle. -/
theorem socketZeroIsNeverWritten : Obligations.SocketZeroIsNeverWritten :=
  ⟨fun _ _ _ h => exec_cell_socketZero h, fun snd => State.reset_cell snd 0,
    fun _ _ hstep hzero => step_preserves (P := fun s => ∀ snd : DevId, s.cell snd 0 = .idle)
      (fun _ _ h => h) (fun s snd => s.assertReset_cell snd 0)
      (fun _ _ _ hzero h snd => (exec_cell_socketZero h snd).trans (hzero snd)) hzero hstep⟩

/-- Settles O7: `assertReset` overwrites the table and `WAIT`, whatever they held. -/
theorem resetLeavesEveryKeyIdle : Obligations.ResetLeavesEveryKeyIdle :=
  ⟨fun _ _ h => ⟨_, step_of_reset h, State.assertReset_cell _, rfl, rfl, rfl⟩, State.reset_cell, rfl, rfl, rfl⟩

/-- Settles O47: reset has answered nothing, and the high nibble of its `TERM` is 0xF. -/
theorem invariantsHoldAtReset : Obligations.InvariantsHoldAtReset :=
  ⟨State.reset_sessionInv, fun _ hr => absurd hr List.not_mem_nil, by decide⟩

end Sys2Proof.Machine
end

section
namespace Sys2Proof

/-! ## The decoder undoes the encoder (30_encoding.md R61, R65, R68) -/

theorem readableBytes_le (len : BitVec 5) : readableBytes len ≤ 16 := by
  unfold readableBytes
  split_ifs with h
  · exact h
  · exact Nat.zero_le 16

theorem Buffer.wf_iff {b : Buffer} : b.wf = true ↔ b.bytes.length = readableBytes b.len := by
  simp [Buffer.wf]

/-- A buffer operand is read back from the port it was written to. -/
theorem bufferOf_padTo16 {b : Buffer} (h : b.wf = true) : bufferOf b.len (padTo16 b.bytes) = b := by
  have hlen := Buffer.wf_iff.1 h
  have hbytes : (padTo16 b.bytes).toList.take (readableBytes b.len) = b.bytes := by
    rw [← hlen]
    exact padTo16_take (hlen.trans_le (readableBytes_le b.len))
  simp [bufferOf, hbytes]

theorem decode_encode {i : Instr} (h : i.wf = true) : decode (encode i) = i := by
  cases i with
  | encw | encs | errd | sack | scmp | wstart | wtmo | illegal0 | illegalE | illegalF => rfl
  | decw => exact (decode_decw rfl).trans (by simp [encode])
  | decs => exact (decode_decs rfl).trans (by simp [encode])
  | encf bc rcpt p => exact (decode_encf rfl).trans (congrArg (Instr.encf bc rcpt) (bufferOf_padTo16 h))
  | decf f => exact (decode_decf rfl).trans (congrArg Instr.decf (bufferOf_padTo16 h))
  | recv f => exact (decode_recv rfl).trans (congrArg Instr.recv (bufferOf_padTo16 h))
  | wack f => exact (decode_wack rfl).trans (congrArg Instr.wack (bufferOf_padTo16 h))

namespace Machine

/-! ## A step with nothing, and with a request, presented (20_memory.md R48, R49) -/

theorem step_of_no_input {s : State} (h : s.inputs = []) : step s = .next s := by
  simp [step, State.arrival, h]

theorem step_of_request {s : State} {r : Request} {rest : List Input} (h : s.inputs = .request r :: rest) :
    step s = exec (decode r) { s with inputs := rest } := by
  simp [step, State.arrival, h]

/-! ## The one cell a request may write (20_memory.md R45) -/

/-- The key an operation feeds an event to is the one its operands or its frame name. -/
theorem Feeds.sessionKey_eq {c : Config} {i : Instr} {ev : Event} {snd : DevId} {skt : Socket}
    (h : Feeds c i ev snd skt) : i.sessionKey = some (snd, skt) := by
  obtain ⟨rfl, -⟩ | ⟨rfl, -⟩ | ⟨f, rfl, -, -, rfl, rfl, -⟩ := h <;> rfl

/-- A write to the cell of a request's key is no write to a cell `(a, b)` that is not its key's. -/
theorem State.setCell_cell_of_not_key {i : Instr} {snd a : DevId} {skt b : Socket} (s : State) (st : SessSt)
    (hk : i.sessionKey = some (snd, skt)) (hab : i.sessionKey ≠ some (a, b)) :
    (s.setCell snd skt st).cell a b = s.cell a b :=
  State.setCell_cell_other _ _ _ _ fun h => hab (h ▸ hk)

theorem RequestEffect.cell_of_not_key {i : Instr} {s u : State} {r : Response} {a : DevId} {b : Socket}
    (h : RequestEffect i s u r) (hab : i.sessionKey ≠ some (a, b)) : u.cell a b = s.cell a b := by
  cases h with
  | answer | refuse | abort | timeOut | beginWait => rfl
  | track hf | complete hf => exact s.setCell_cell_of_not_key _ hf.sessionKey_eq hab
  | consumeAwaited hf => exact s.setCell_cell_of_not_key _ hf.sessionKey_eq hab
  | consumeCompleted _ hk => exact s.setCell_cell_of_not_key _ hk hab

theorem exec_cell_of_not_key {i : Instr} {s t : State} {a : DevId} {b : Socket} (h : exec i s = .next t)
    (hab : i.sessionKey ≠ some (a, b)) : t.cell a b = s.cell a b := by
  obtain ⟨u, r, rfl, he⟩ := exec_next h
  exact he.cell_of_not_key hab

/-! ## The obligations of 20_memory.md -/

/-- Settles O55: every cell that is not the request's key's is kept, and without a key that is the whole table. -/
theorem requestsWriteOnlyTheirOwnKey : Obligations.RequestsWriteOnlyTheirOwnKey := by
  intro i s t h
  refine ⟨fun snd skt hk a b hab => exec_cell_of_not_key h ?_, fun hk => State.sess_ext fun a b => ?_⟩
  · exact fun hk' => hab (Option.some.inj (hk'.symm.trans hk))
  · exact exec_cell_of_not_key h (by simp [hk])

/-- Settles O6: the step by what the port holds, and the decoder's reading of an encoded instruction. -/
theorem stepPerformsPresentedRequest : Obligations.StepPerformsPresentedRequest :=
  fun _ => ⟨step_of_no_input, fun _ _ => step_of_request,
    fun _ _ hwf h => (step_of_request h).trans (by rw [decode_encode hwf])⟩

end Machine
end Sys2Proof
end

section
namespace Sys2Proof

/-! ## What the decoder reads (30_encoding.md R61, R64, R65) -/

@[simp] theorem bufferOf_wf (len : BitVec 5) (buf : Vector Byte 16) : (bufferOf len buf).wf = true := by
  simp [Buffer.wf, bufferOf, readableBytes_le]

theorem decode_wf (r : Request) : (decode r).wf = true := by
  unfold decode
  split <;> simp only [Instr.wf, bufferOf_wf]

theorem decode_opcode (r : Request) : (decode r).opcode = r.op := by
  have hop := r.op.isLt
  unfold decode
  split
  case h_16 => -- 0xF, the one value of `op` that is left
    simp only [imp_false] at *
    simp only [Instr.opcode]
    bv_omega
  all_goals
    simp only [Instr.opcode]
    bv_omega

/-- A buffer operand holds of the port no byte at or above its length. -/
theorem bufferOf_congr {len len' : BitVec 5} {buf buf' : Vector Byte 16}
    (h : len = len' ∧ (len.toNat ≤ 16 → ∀ i : Fin 16, i.val < len.toNat → buf[i] = buf'[i])) :
    bufferOf len buf = bufferOf len' buf' := by
  obtain ⟨rfl, hbytes⟩ := h
  unfold bufferOf readableBytes
  split_ifs with hlen
  · refine congrArg (Buffer.mk len) (List.ext_getElem (by simp) fun i hi _ => ?_)
    have hi : i < len.toNat := by simp at hi; omega
    simpa using hbytes hlen ⟨i, by omega⟩ hi
  · rfl

/-- Row by row of the op map, the fields listed for the operation are all that its row reads. -/
theorem decode_congr {r r' : Request} (h : r.sameRead r') : decode r = decode r' := by
  obtain ⟨hop, hfields⟩ := h
  unfold decode
  rw [← hop]
  split <;> rename_i hrow <;> simp only [hrow] at hfields
  case h_3 | h_5 => -- DECW and DECS read four bytes of the port
    have h0 : r.buf[0] = r'.buf[0] := hfields 0
    have h1 : r.buf[1] = r'.buf[1] := hfields 1
    have h2 : r.buf[2] = r'.buf[2] := hfields 2
    have h3 : r.buf[3] = r'.buf[3] := hfields 3
    rw [h0, h1, h2, h3]
  case h_6 => -- ENCF
    obtain ⟨hbc, hrcpt, hbuf⟩ := hfields
    rw [hbc, hrcpt, bufferOf_congr hbuf]
  case h_7 | h_11 | h_13 => -- DECF, RECV and WACK
    rw [bufferOf_congr hfields]
  all_goals simp only [hfields]

namespace Machine

/-! ## The form of a response (30_encoding.md R62, R63; 60_exceptions.md R200, R203; 42_error_decoder.md R140) -/

theorem ErrKind.code_le (e : ErrKind) : e.code.toNat ≤ 10 := by
  cases e <;> decide

theorem ErrKind.code_ne_zero (e : ErrKind) : e.code ≠ 0 := by
  cases e <;> decide

theorem ErrKind.code_eq_five_iff {e : ErrKind} : e.code = 5 ↔ e = .deviceError := by
  cases e <;> decide

theorem DevSub.code_listed (d : DevSub) : 1 ≤ d.code.toNat ∧ d.code.toNat ≤ 6 := by
  cases d <;> decide

theorem Anomaly.code_ne_three (a : Anomaly) : a.code ≠ 3 := by
  cases a <;> decide

theorem ReplyKind.code_ne_three (k : ReplyKind) : k.code ≠ 3 := by
  cases k <;> decide

namespace Response

/-- The form of the fields driven before the request ends: well formed, with no status, error or anomaly driven yet. -/
structure InProgress (r : Response) : Prop extends r.WellFormed where
  statusUndriven : r.status = 0
  errUndriven : r.err = 0
  anomalyUndriven : r.anomaly = 0

theorem undriven_inProgress : undriven.InProgress := by
  refine ⟨⟨?_, ?_, ?_, ?_, ?_, ?_, ?_, ?_, ?_, ?_, ?_⟩, rfl, rfl, rfl⟩ <;> simp [undriven]

theorem parsedFields_inProgress (f : Buffer) : (parsedFields f).InProgress :=
  { undriven_inProgress with noHeader := nofun }

variable {r : Response}

theorem WellFormed.finish (h : r.WellFormed) (hs : r.status = 0) : r.finish.WellFormed := by
  rwa [Response.finish, show Status.ok.code = r.status from hs.symm]

theorem WellFormed.endWait (h : r.WellFormed) (e : WaitEnd) : (r.endWait e).WellFormed := { h with }

namespace InProgress

theorem driveBytes (h : r.InProgress) {l : List Byte} (hl : l.length ≤ 16) : (r.driveBytes l).InProgress :=
  have holen : (r.driveBytes l).olen.toNat = l.length := by
    simp [Response.driveBytes]; omega
  { h with
    lengthInPort := holen.trans_le hl
    unusedBytesZero := fun i hi =>
      (padTo16_getElem l i i.isLt).trans (List.getD_eq_default _ _ (holen ▸ hi)) }

theorem withWord (h : r.InProgress) (w : Word) : ({ r with w := w } : Response).InProgress := { h with }

/-- The kind of a reply goes with its header fields. -/
theorem withKind (h : r.InProgress) (hv : r.hv = true) (k : ReplyKind) :
    ({ r with pkind := k.code } : Response).InProgress :=
  { h with
    kindListed := k.code_ne_three
    noHeader := fun hv' => absurd (hv.symm.trans hv') nofun }

theorem endWait (h : r.InProgress) (e : WaitEnd) : (r.endWait e).InProgress := { h with }

/-! The five ways a request ends. -/

theorem finish (h : r.InProgress) : r.finish.WellFormed := h.toWellFormed.finish h.statusUndriven

theorem finish_note (h : r.InProgress) (a : Anomaly) : (r.note a).finish.WellFormed :=
  { h with
    statusListed := nofun
    errIffStatus := iff_of_false (fun hne => hne h.errUndriven) nofun
    anomalyListed := a.code_ne_three
    anomalyOk := fun _ => rfl }

theorem pend (h : r.InProgress) : r.pend.WellFormed :=
  { h with
    statusListed := nofun
    errIffStatus := iff_of_false (fun hne => hne h.errUndriven) nofun
    anomalyOk := absurd h.anomalyUndriven }

theorem raise (h : r.InProgress) {e : ErrKind} (he : e ≠ .deviceError) : (r.raise e).WellFormed :=
  { h with
    statusListed := nofun
    errListed := e.code_le
    errIffStatus := iff_of_true e.code_ne_zero rfl
    deviceDetails := fun hcode => absurd (ErrKind.code_eq_five_iff.1 hcode) he
    noDeviceDetails := fun _ => h.noDeviceDetails (by simp [h.errUndriven])
    anomalyOk := absurd h.anomalyUndriven }

theorem raiseDevice (h : r.InProgress) (d : DevErr) : (r.raiseDevice d).WellFormed :=
  { h with
    statusListed := nofun
    errListed := ErrKind.code_le .deviceError
    errIffStatus := iff_of_true (ErrKind.code_ne_zero .deviceError) rfl
    deviceDetails := fun _ => d.sub.code_listed
    noDeviceDetails := absurd rfl
    anomalyOk := absurd h.anomalyUndriven }

end InProgress
end Response

/-- Where the result `o` of a request is a next state, the response the host reads there is well formed. -/
def GivesWellFormed (o : Result) : Prop :=
  ∀ t, o = .next t → t.lastResponse.WellFormed

section Endings
variable {r : Response} {s : State} {snd : DevId} {skt : Socket}

theorem finish_givesWellFormed (h : r.InProgress) : GivesWellFormed (finish r s) := by
  rintro _ ⟨⟩
  exact h.finish

theorem fail_givesWellFormed (h : r.WellFormed) : GivesWellFormed (fail r s) := by
  rintro _ ⟨⟩
  exact h

theorem raise_givesWellFormed {e : ErrKind} (h : r.InProgress) (he : e ≠ .deviceError) :
    GivesWellFormed (raise e r s) :=
  fail_givesWellFormed (h.raise he)

theorem failSession_givesWellFormed (h : r.WellFormed) : GivesWellFormed (failSession r s) := by
  intro t ht
  obtain ⟨-, rfl⟩ | ⟨-, rfl⟩ := failSession_next.1 ht
  · exact h.endWait .aborted
  · exact h

theorem completeKey_givesWellFormed (h : r.InProgress) : GivesWellFormed (completeKey snd skt r s) := by
  intro t ht
  obtain ⟨-, rfl⟩ | ⟨-, rfl⟩ := completeKey_next.1 ht
  · exact (h.endWait .done).finish
  · exact h.finish

theorem sessionUpdate_givesWellFormed {ev : Event} (h : r.InProgress) :
    GivesWellFormed (sessionUpdate ev snd skt r s) := by
  have hdup : (r.raise .duplicateAck).WellFormed := h.raise nofun
  intro t ht
  obtain ⟨-, rfl⟩ | ⟨-, -, -, rfl⟩ | ⟨-, -, -, ht⟩ | ⟨-, -, -, rfl⟩ | ⟨-, -, -, ht⟩ | ⟨-, -, -, rfl⟩ :=
    sessionUpdate_next.1 ht
  · exact h.finish
  · exact h.finish
  · exact failSession_givesWellFormed hdup t ht
  · exact h.finish_note _
  · exact completeKey_givesWellFormed h t ht
  · exact h.finish_note _

theorem startWait_givesWellFormed : GivesWellFormed (startWait snd skt s) := by
  have h0 := Response.undriven_inProgress
  intro t ht
  obtain ⟨-, rfl⟩ | ⟨-, -, -, rfl⟩ | ⟨-, -, -, rfl⟩ := startWait_next.1 ht
  · exact h0.raise nofun
  · exact (h0.endWait .done).finish
  · exact h0.pend
end Endings

/-! The byte sequences a response carries fit its port. -/

theorem nibbleBytes_length (v : Word) : (nibbleBytes v).length = 4 := rfl

theorem buildFrame_length_le {p : Buffer} (hwf : p.wf = true) (hlen : frameLen p ≤ 14)
    (c : Config) (bc : Bool) (rcpt : DevId) : (buildFrame c bc rcpt p.bytes).length ≤ 16 := by
  unfold frameLen at hlen
  rw [buildFrame_length, Buffer.wf_iff.1 hwf, readableBytes]
  split_ifs <;> omega

theorem replyPayload_length_le {f : Buffer} (h : frameLen f ≤ 16) : (replyPayload f).length ≤ 16 :=
  (List.length_take_le _ _).trans (by omega)

theorem decodeFrame_error_wellFormed {c : Config} {f : Buffer} {r : Response}
    (h : decodeFrame c f = .error r) : r.WellFormed := by
  have hp := Response.parsedFields_inProgress f
  obtain ⟨-, hd⟩ | ⟨-, ⟨-, hd⟩ | ⟨-, ⟨-, -, hd⟩ | ⟨-, -, hd⟩ | ⟨-, hd⟩⟩⟩ := decodeFrame_cases c f <;>
    cases hd.symm.trans h
  · exact Response.undriven_inProgress.raise nofun
  · exact hp.raise nofun
  · exact hp.raise nofun
  · exact hp.raiseDevice _

theorem decodeFrame_ok_inProgress {c : Config} {f : Buffer} {r : Response}
    (h : decodeFrame c f = .ok r) : r.InProgress := by
  obtain ⟨-, hd⟩ | ⟨⟨-, hlen, -⟩, ⟨-, hd⟩ | ⟨-, ⟨-, -, hd⟩ | ⟨-, -, hd⟩ | ⟨-, hd⟩⟩⟩ := decodeFrame_cases c f <;>
    cases hd.symm.trans h
  exact ((Response.parsedFields_inProgress f).driveBytes (replyPayload_length_le hlen)).withKind rfl _

theorem execDecf_givesWellFormed (f : Buffer) (s : State) : GivesWellFormed (execDecf f s) := by
  unfold execDecf
  cases hd : decodeFrame s.cfg f with
  | error r => exact fail_givesWellFormed (decodeFrame_error_wellFormed hd)
  | ok r => exact finish_givesWellFormed (decodeFrame_ok_inProgress hd)

theorem execRecv_givesWellFormed (f : Buffer) (s : State) : GivesWellFormed (execRecv f s) := by
  unfold execRecv
  cases hd : decodeFrame s.cfg f with
  | error r => exact failSession_givesWellFormed (decodeFrame_error_wellFormed hd)
  | ok r =>
    have hr := decodeFrame_ok_inProgress hd
    dsimp only [routeReply]
    split_ifs
    · exact sessionUpdate_givesWellFormed hr
    · exact sessionUpdate_givesWellFormed hr
    · exact finish_givesWellFormed hr

/-- The operand of ENCF has to be one a request can give: a longer byte list than its `len` would not fit the port. -/
theorem exec_givesWellFormed {i : Instr} (hi : i.wf = true) (s : State) : GivesWellFormed (exec i s) := by
  have h0 := Response.undriven_inProgress
  have hword (v : Word) : (Response.driveBytes (nibbleBytes v) .undriven).InProgress :=
    h0.driveBytes ((nibbleBytes_length v).trans_le (by decide))
  cases i with
  | encw => exact finish_givesWellFormed (hword _)
  | decw | decs =>
    dsimp only [exec, execDecw, execDecs]
    split
    · exact raise_givesWellFormed h0 nofun
    · exact finish_givesWellFormed (h0.withWord _)
  | encs =>
    dsimp only [exec, execEncs]
    split_ifs
    · exact raise_givesWellFormed h0 nofun
    · exact finish_givesWellFormed (hword _)
  | encf bc rcpt p =>
    dsimp only [exec, execEncf]
    split_ifs with hlen
    · exact raise_givesWellFormed h0 nofun
    · exact finish_givesWellFormed (h0.driveBytes (buildFrame_length_le hi (by omega) _ _ _))
  | decf f => exact execDecf_givesWellFormed f s
  | errd => exact fail_givesWellFormed (h0.raiseDevice _)
  | sack | scmp => exact sessionUpdate_givesWellFormed h0
  | recv f => exact execRecv_givesWellFormed f s
  | wstart => exact startWait_givesWellFormed
  | wack =>
    dsimp only [exec, execWack]
    split_ifs
    · exact raise_givesWellFormed h0 nofun
    · exact startWait_givesWellFormed
  | wtmo =>
    dsimp only [exec, execWtmo]
    split_ifs
    · exact raise_givesWellFormed (h0.endWait .timeout) nofun
    · exact raise_givesWellFormed h0 nofun
  | illegal0 | illegalE | illegalF => exact raise_givesWellFormed h0 nofun

/-! ## The ports, and where a wait starts (30_encoding.md R60, R62) -/

namespace RequestEffect
variable {i : Instr} {s u : State} {r : Response}

theorem inputs_eq (h : RequestEffect i s u r) : u.inputs = s.inputs := by
  cases h <;> rfl

theorem responses_eq (h : RequestEffect i s u r) : u.responses = s.responses := by
  cases h <;> rfl

theorem status_pending_iff (h : RequestEffect i s u r) :
    r.status = 2 ↔ s.wait.v = false ∧ u.wait.v = true := by
  cases h with
  | answer hs | refuse _ hs | abort _ _ hs | timeOut _ _ hs | track _ _ _ hs | complete _ _ _ _ hs
  | consumeAwaited _ _ _ _ hs | consumeCompleted _ _ _ _ _ hs => simp [hs]
  | beginWait _ _ hv _ _ hs => simp [hs, hv]

theorem of_status_pending (h : RequestEffect i s u r) (hp : r.status = 2) :
    i.startsWait = true ∧ u.sess = s.sess ∧ u.wait.skt ≠ 0 ∧ u.cell u.wait.snd u.wait.skt = .outstanding := by
  cases h with
  | answer hs | refuse _ hs | abort _ _ hs | timeOut _ _ hs | track _ _ _ hs | complete _ _ _ _ hs
  | consumeAwaited _ _ _ _ hs | consumeCompleted _ _ _ _ _ hs => simp [hs] at hp
  | beginWait hi _ _ h0 hc => exact ⟨hi, rfl, h0, hc⟩

end RequestEffect

/-- The inversion of a request whose response is `r`. -/
theorem exec_next_of_responses {i : Instr} {s t : State} {r : Response} (h : exec i s = .next t)
    (ht : t.responses = r :: s.responses) : ∃ u, t = u.respond r ∧ RequestEffect i s u r := by
  obtain ⟨u, q, rfl, he⟩ := exec_next h
  obtain ⟨rfl, -⟩ := List.cons.inj ht
  exact ⟨u, rfl, he⟩

theorem exec_responsesWellFormed {i : Instr} {s t : State} (hi : i.wf = true) (hs : s.ResponsesWellFormed)
    (h : exec i s = .next t) : t.ResponsesWellFormed := by
  have hlast := exec_givesWellFormed hi s t h
  obtain ⟨u, r, rfl, he⟩ := exec_next h
  intro q hq
  rw [State.respond_responses, he.responses_eq] at hq
  obtain rfl | hq := List.mem_cons.1 hq
  · exact hlast
  · exact hs q hq

/-! ## The host's wait for a key (30_encoding.md R68) -/

/-- How the wait for the key `(snd, skt)` stands in `t`, by the latest response: still pending with its key Outstanding,
ended with DONE and its entry removed, or ended in another way with its entry kept. -/
inductive WaitOutcome (snd : DevId) (skt : Socket) (t : State) : Prop where
  | pending : t.wait = ⟨true, snd, skt⟩ → t.cell snd skt = .outstanding → t.lastResponse.waitEnd = 0 →
      WaitOutcome snd skt t
  | done : t.wait.v = false → t.cell snd skt = .idle → t.lastResponse.waitEnd = 1 → WaitOutcome snd skt t
  | givenUp : t.wait.v = false → t.cell snd skt = .outstanding → t.lastResponse.waitEnd ≠ 0 →
      t.lastResponse.waitEnd ≠ 1 → WaitOutcome snd skt t

namespace WaitOutcome
variable {snd : DevId} {skt : Socket} {t : State}

theorem of_waitEnd_zero (h : WaitOutcome snd skt t) (he : t.lastResponse.waitEnd = 0) :
    t.wait = ⟨true, snd, skt⟩ ∧ t.cell snd skt = .outstanding := by
  cases h with
  | pending hw hc => exact ⟨hw, hc⟩
  | done _ _ hdone => exact absurd (hdone.symm.trans he) (by decide)
  | givenUp _ _ hne => exact absurd he hne

/-- No wait is pending exactly where the response reports that it ended. -/
theorem wait_v_eq_false_iff (h : WaitOutcome snd skt t) : t.wait.v = false ↔ t.lastResponse.waitEnd ≠ 0 := by
  cases h with
  | pending hw _ he => simp [hw, he]
  | done hv _ he => simp [hv, he]
  | givenUp hv _ he => exact iff_of_true hv he

/-- The entry is gone exactly where the response reports DONE. -/
theorem cell_eq_idle_iff (h : WaitOutcome snd skt t) : t.cell snd skt = .idle ↔ t.lastResponse.waitEnd = 1 := by
  cases h with
  | pending _ hc he => simp [hc, he]
  | done _ hc he => exact iff_of_true hc he
  | givenUp _ hc _ he => exact iff_of_false (by simp [hc]) he

end WaitOutcome

/-- Whatever is requested while a wait is pending, the wait stays pending or ends in one of the listed ways. -/
theorem RequestEffect.waitOutcome {i : Instr} {s u : State} {r : Response} {snd : DevId} {skt : Socket}
    (h : RequestEffect i s u r) (hw : s.wait = ⟨true, snd, skt⟩) (hc : s.cell snd skt = .outstanding) :
    WaitOutcome snd skt (u.respond r) := by
  have hv : s.wait.v = true := by rw [hw]
  have hawaits : s.awaits snd skt = true := by simp [State.awaits, hw]
  cases h with
  | answer _ he | refuse _ _ he => exact .pending hw hc he
  | abort _ _ _ he | timeOut _ _ _ _ he => exact .givenUp rfl hc (by simp [he]) (by simp [he])
  | track _ _ _ _ he => exact .pending hw (by simp [State.setCell_cell, hc]) he
  | @complete a b _ _ _ _ hnot _ he =>
    have hother : (snd, skt) ≠ (a, b) := by
      rintro ⟨⟩
      exact absurd (hnot.symm.trans hawaits) nofun
    exact .pending hw ((State.setCell_cell_other _ _ _ _ hother).trans hc) he
  | consumeAwaited _ _ _ hkey _ he =>
    obtain ⟨-, rfl, rfl⟩ := (s.awaits_iff _ _).1 hkey
    obtain ⟨-, rfl, rfl⟩ := (s.awaits_iff _ _).1 hawaits
    exact .done rfl (by simp) he
  | consumeCompleted _ _ hv' | beginWait _ _ hv' => exact absurd (hv'.symm.trans hv) nofun

theorem exec_wtmo_waitEnd {s t : State} (hv : s.wait.v = true) (h : exec .wtmo s = .next t) :
    t.lastResponse.waitEnd = 3 := by
  simp only [exec, execWtmo, hv, if_true, raise_next] at h
  rw [h]
  rfl

/-- The host's loop, by induction on its events: the wait stands in one of the listed ways where the loop ends, and a
timeout among the events ends it. -/
theorem awaitEnd_outcome {snd : DevId} {skt : Socket} (events : List WaitEvent) {s : State}
    (hw : s.wait = ⟨true, snd, skt⟩) (hc : s.cell snd skt = .outstanding) (he : s.lastResponse.waitEnd = 0) :
    ∃ t, awaitEnd events s = .next t ∧ WaitOutcome snd skt t ∧
      (.timeout ∈ events → t.lastResponse.waitEnd ≠ 0) := by
  induction events generalizing s with
  | nil => exact ⟨s, rfl, .pending hw hc he, nofun⟩
  | cons e es ih =>
    obtain ⟨u, r, hexec, heff⟩ := exec_hasEffect e.request s
    have hu := heff.waitOutcome hw hc
    rw [awaitEnd_cons_next hexec]
    split_ifs with hopen
    · obtain ⟨hw', hc'⟩ := hu.of_waitEnd_zero hopen
      obtain ⟨t, ht, hout, hend⟩ := ih hw' hc' hopen
      refine ⟨t, ht, hout, fun hmem => ?_⟩
      obtain rfl | hmem := List.mem_cons.1 hmem
      · have htimeout := exec_wtmo_waitEnd (by rw [hw]) hexec
        exact absurd (htimeout.symm.trans hopen) (by decide)
      · exact hend hmem
    · exact ⟨_, rfl, hu, fun _ => hopen⟩

/-- A Completed key is consumed at once; on an Outstanding key the wait starts and the host's loop follows. -/
theorem consumeCompletion_outcome {snd : DevId} {skt : Socket} (events : List WaitEvent) {s : State} (h0 : skt ≠ 0)
    (hc : s.cell snd skt ≠ .idle) (hv : s.wait.v = false) :
    ∃ t, consumeCompletion snd skt events s = .next t ∧ WaitOutcome snd skt t ∧
      (.timeout ∈ events → t.lastResponse.waitEnd ≠ 0) := by
  cases hcell : s.cell snd skt with
  | idle => exact absurd hcell hc
  | completed =>
    have hexec : exec (.wstart snd skt) s = .next _ := startWait_next.2 (.inr (.inl ⟨hv, h0, hcell, rfl⟩))
    exact ⟨_, waitCall_next hexec, .done hv (by simp) rfl, fun _ => nofun⟩
  | outstanding =>
    have hexec : exec (.wstart snd skt) s = .next _ := startWait_next.2 (.inr (.inr ⟨hv, h0, hcell, rfl⟩))
    obtain ⟨t, ht, hout⟩ :=
      awaitEnd_outcome events (s := (s.beginWait snd skt).respond Response.undriven.pend) rfl hcell rfl
    exact ⟨t, (waitCall_next hexec).trans ht, hout⟩

/-! ## The obligations of 30_encoding.md -/

/-- Settles O1: operand by operand, the decoder reads what the encoder wrote. -/
theorem decodeOfEncodeIsIdentity : Obligations.DecodeOfEncodeIsIdentity :=
  fun _ => decode_encode

/-- Settles O49: a request decodes to a well-formed instruction, and that adds one well-formed response. -/
theorem responsesStayWellFormed : Obligations.ResponsesStayWellFormed := by
  intro s t hs hstep
  obtain ⟨-, h⟩ | ⟨rest, -, h⟩ | ⟨r, rest, -, h⟩ := step_cases s
  · cases h.symm.trans hstep
    exact hs
  · cases h.symm.trans hstep
    exact hs
  · have hs : State.ResponsesWellFormed { s with inputs := rest } := hs
    exact exec_responsesWellFormed (decode_wf r) hs (h.symm.trans hstep)

/-- Settles O2: a buffer operand is cut to the readable bytes. -/
theorem everyRequestDecodesWellFormed : Obligations.EveryRequestDecodesWellFormed :=
  decode_wf

/-- Settles O3: each row of the op map gives the operation of its op code. -/
theorem opFieldAloneSelectsOperation : Obligations.OpFieldAloneSelectsOperation :=
  decode_opcode

/-- Settles O4: no row of the op map reads a field that is not listed for it. -/
theorem unlistedRequestFieldsAreIgnored : Obligations.UnlistedRequestFieldsAreIgnored :=
  fun _ _ => decode_congr

/-- Settles O41: every way a request can act keeps the configuration and both ports, and one response is added. -/
theorem everyRequestGivesOneResponse : Obligations.EveryRequestGivesOneResponse := by
  intro i s
  obtain ⟨u, r, h, he⟩ := exec_hasEffect i s
  exact ⟨u.respond r, r, h, he.cfg_eq, he.inputs_eq, congrArg (r :: ·) he.responses_eq⟩

/-- Settles O46: of the ways a request can act only the start of a wait has this status. -/
theorem pendingStatusMeansWaitStarted : Obligations.PendingStatusMeansWaitStarted := by
  intro i s t r h ht
  obtain ⟨u, rfl, he⟩ := exec_next_of_responses h ht
  exact ⟨he.status_pending_iff, he.of_status_pending⟩

/-- Settles O53: a timeout among the events ends the wait, where no frame before it did. -/
theorem consumeWithTimeoutAlwaysEnds : Obligations.ConsumeWithTimeoutAlwaysEnds := by
  intro snd skt events s h0 hc hv hmem
  obtain ⟨t, ht, hout, hend⟩ := consumeCompletion_outcome events h0 hc hv
  exact ⟨t, ht, hend hmem, hout.wait_v_eq_false_iff.2 (hend hmem)⟩

/-- Settles O54: however the call ends, the key's cell and `WAIT.V` go with the `waitEnd` reported last. -/
theorem consumeRemovesEntryExactlyWhenDone : Obligations.ConsumeRemovesEntryExactlyWhenDone := by
  intro snd skt events s t h0 hc hv h
  obtain ⟨u, hu, hout, -⟩ := consumeCompletion_outcome events h0 hc hv
  cases h.symm.trans hu
  exact ⟨fun hdone => ⟨hout.cell_eq_idle_iff.2 hdone, hout.wait_v_eq_false_iff.2 (by simp [hdone])⟩,
    mt hout.cell_eq_idle_iff.1⟩

/-- Settles O5: each written request by its row of the op map. -/
theorem writtenRequestsDecode : Obligations.WrittenRequestsDecode :=
  ⟨decode_encf rfl, decode_recv rfl, decode_encs rfl, decode_sack rfl, decode_wtmo rfl, decode_illegalE rfl⟩

/-- Settles O38: the three rows of the op map that spell no operation, and the one answer they share. -/
theorem illegalOpsChangeNothing : Obligations.IllegalOpsChangeNothing := by
  rintro r i s (⟨hop, rfl⟩ | ⟨hop, rfl⟩ | ⟨hop, rfl⟩)
  · exact ⟨decode_illegal0 hop, rfl⟩
  · exact ⟨decode_illegalE hop, rfl⟩
  · exact ⟨decode_illegalF hop, rfl⟩

end Machine
end Sys2Proof
end

section
namespace Sys2Proof.Machine

/-! ## Nibble bytes (20_memory.md R42, 40_integer_codec.md R100 to R102) -/

theorem mem_nibbleBytes {v : Word} {b : Byte} (h : b ∈ nibbleBytes v) : ∃ n : BitVec 4, b = n.zeroExtend 8 := by
  simp only [nibbleBytes, List.mem_cons, List.not_mem_nil, or_false] at h
  obtain rfl | rfl | rfl | rfl := h <;> exact ⟨_, rfl⟩

/-- The condition of R102 under which four bytes spell a word. -/
theorem wordOfNibbles_of_hiNibble_zero {b0 b1 b2 b3 : Byte}
    (h : hiNibble b0 = 0 ∧ hiNibble b1 = 0 ∧ hiNibble b2 = 0 ∧ hiNibble b3 = 0) :
    wordOfNibbles b0 b1 b2 b3 = some (loNibble b0 ++ loNibble b1 ++ loNibble b2 ++ loNibble b3) := by
  simp [wordOfNibbles, h]

theorem wordOfNibbles_of_not_hiNibble_zero {b0 b1 b2 b3 : Byte}
    (h : ¬(hiNibble b0 = 0 ∧ hiNibble b1 = 0 ∧ hiNibble b2 = 0 ∧ hiNibble b3 = 0)) :
    wordOfNibbles b0 b1 b2 b3 = none :=
  if_pos (by simpa only [not_and_or] using h)

/-! ## The two forms of a signed word (40_integer_codec.md R104, R107; 90_conflicts.md C1, C2) -/

theorem xor_ffff (w : Word) : w ^^^ 0xFFFF = ~~~w :=
  BitVec.xor_allOnes

/-- R104's word is the two's complement of the value, for a negative value as well. -/
theorem signedWord_eq_ofInt (v : Int) : signedWord v = BitVec.ofInt 16 v := by
  have hneg : BitVec.ofInt 16 (-v - 1) = ~~~BitVec.ofInt 16 v := by
    rw [BitVec.not_eq_neg_add, ← BitVec.ofInt_neg, BitVec.sub_eq_add_neg]
    exact BitVec.ofInt_add _ (-1)
  unfold signedWord
  split_ifs
  · rw [hneg, xor_ffff, BitVec.not_not]
  · rfl

/-- R107's reading by bit 15 is the two's complement reading. -/
theorem signedValue_eq_toInt (w : Word) : signedValue w = w.toInt := by
  rw [signedValue, xor_ffff, BitVec.toNat_not, BitVec.toInt_eq_msb_cond, BitVec.msb_eq_getLsbD_last]
  have := w.isLt
  split_ifs <;> omega

theorem signedWord_toInt (a : Word) : signedWord a.toInt = a :=
  (signedWord_eq_ofInt _).trans BitVec.ofInt_toInt

theorem ofInt_signedValue (w : Word) : BitVec.ofInt 16 (signedValue w) = w := by
  rw [signedValue_eq_toInt, BitVec.ofInt_toInt]

/-! ## What each operation of the integer codec answers -/

/-- The answer of ENCW, and of ENCS within its limit: the nibble bytes of a word (R100, R104). -/
def Response.ofNibbles (v : Word) : Response :=
  (Response.driveBytes (nibbleBytes v) .undriven).finish

/-- The answer of DECW and DECS to four bytes that spell a word (R102, R107). -/
def Response.ofWord (w : Word) : Response :=
  Response.finish { Response.undriven with w := w }

/-- The port holds the four nibble bytes and zeros after them. -/
theorem padTo16_nibbleBytes (v : Word) : padTo16 (nibbleBytes v) =
    #v[(v.extractLsb' 12 4).zeroExtend 8, (v.extractLsb' 8 4).zeroExtend 8, (v.extractLsb' 4 4).zeroExtend 8,
      (v.extractLsb' 0 4).zeroExtend 8, 0, 0, 0, 0, 0, 0, 0, 0, 0, 0, 0, 0] :=
  Vector.toList_inj.1 (padTo16_toList ((nibbleBytes_length v).trans_le (by decide)))

theorem Response.ofNibbles_eq (v : Word) : Response.ofNibbles v =
    { status := 0, olen := 4, obuf := #v[(v.extractLsb' 12 4).zeroExtend 8, (v.extractLsb' 8 4).zeroExtend 8,
        (v.extractLsb' 4 4).zeroExtend 8, (v.extractLsb' 0 4).zeroExtend 8, 0, 0, 0, 0, 0, 0, 0, 0, 0, 0, 0, 0] } := by
  rw [← padTo16_nibbleBytes]
  rfl

theorem Response.ofNibbles_obuf (v : Word) {k : Nat} (hk : k < 16) :
    (Response.ofNibbles v).obuf[k] = (nibbleBytes v).getD k 0 :=
  padTo16_getElem _ _ hk

/-- Reading a word's four nibble bytes from the port gives the word back (R103). -/
theorem wordOfNibbles_ofNibbles (v : Word) : wordOfNibbles (Response.ofNibbles v).obuf[0]
    (Response.ofNibbles v).obuf[1] (Response.ofNibbles v).obuf[2] (Response.ofNibbles v).obuf[3] = some v := by
  simp only [Response.ofNibbles_obuf, nibbleBytes, List.getD_cons_zero, List.getD_cons_succ]
  rw [wordOfNibbles_of_hiNibble_zero (by simp only [hiNibble_zeroExtend, and_self])]
  simp only [loNibble_zeroExtend, nibbles_append]

/-- Every byte ENCW gives has a zero high nibble, and the terminator has not (R101). -/
theorem Response.ofNibbles_obuf_ne_term {c : Config} (hc : c.legal) (v : Word) {k : Nat} (hk : k < 16) (h4 : k < 4) :
    (ofNibbles v).obuf[k].toNat ≤ 0x0F ∧ (ofNibbles v).obuf[k] ≠ c.term := by
  have hmem : (ofNibbles v).obuf[k] ∈ nibbleBytes v := by
    rw [ofNibbles_obuf, List.getD_eq_getElem _ _ h4]
    exact List.getElem_mem _
  obtain ⟨n, hn⟩ := mem_nibbleBytes hmem
  rw [hn]
  exact ⟨nibble_le n, fun hterm => hc ((congrArg hiNibble hterm).symm.trans (hiNibble_zeroExtend n))⟩

section Exec
variable {b0 b1 b2 b3 : Byte} {a lim w : Word} (s : State)

theorem exec_encw : exec (.encw a) s = .next (s.respond (.ofNibbles a)) := rfl

theorem exec_decw_of_some (h : wordOfNibbles b0 b1 b2 b3 = some w) :
    exec (.decw b0 b1 b2 b3) s = .next (s.respond (.ofWord w)) := by
  simp only [exec, execDecw, h]
  rfl

theorem exec_decw_of_none (h : wordOfNibbles b0 b1 b2 b3 = none) :
    exec (.decw b0 b1 b2 b3) s = .next (s.respond (Response.raise .invalidEncoding .undriven)) := by
  simp only [exec, execDecw, h]
  rfl

/-- Within the limit ENCS gives the nibble bytes of R104's word. -/
theorem exec_encs_of_le (h : a.toInt.natAbs ≤ lim.toNat) :
    exec (.encs a lim) s = .next (s.respond (.ofNibbles (signedWord a.toInt))) :=
  if_neg h.not_gt

theorem exec_encs_of_lt (h : lim.toNat < a.toInt.natAbs) :
    exec (.encs a lim) s = .next (s.respond (Response.raise .invalidArgument .undriven)) :=
  if_pos h

theorem exec_decs_of_some (h : wordOfNibbles b0 b1 b2 b3 = some w) :
    exec (.decs b0 b1 b2 b3) s = .next (s.respond (.ofWord (BitVec.ofInt 16 (signedValue w)))) := by
  simp only [exec, execDecs, h]
  rfl

theorem exec_decs_of_none (h : wordOfNibbles b0 b1 b2 b3 = none) :
    exec (.decs b0 b1 b2 b3) s = .next (s.respond (Response.raise .invalidEncoding .undriven)) := by
  simp only [exec, execDecs, h]
  rfl

/-- R104's word is the operand's own bits, so ENCS transmits what ENCW does (R105). -/
theorem exec_encs_eq_encw (h : a.toInt.natAbs ≤ lim.toNat) : exec (.encs a lim) s = exec (.encw a) s := by
  rw [exec_encs_of_le s h, signedWord_toInt, exec_encw]

/-- R107's value, cut to 16 bits, is the word it was read from (R108). -/
theorem exec_decs_eq_decw (b0 b1 b2 b3 : Byte) : exec (.decs b0 b1 b2 b3) s = exec (.decw b0 b1 b2 b3) s := by
  cases h : wordOfNibbles b0 b1 b2 b3 with
  | none => rw [exec_decs_of_none s h, exec_decw_of_none s h]
  | some w => rw [exec_decs_of_some s h, ofInt_signedValue, exec_decw_of_some s h]
end Exec

theorem exec_encw_obuf_ne_term {a : Word} {s t : State} {r : Response} (hc : s.cfg.legal)
    (h : exec (.encw a) s = .next t) (ht : t.responses = r :: s.responses) (k : Fin 16) (hk : k.val < r.olen.toNat) :
    r.obuf[k].toNat ≤ 0x0F ∧ r.obuf[k] ≠ s.cfg.term := by
  cases h
  cases ht
  exact Response.ofNibbles_obuf_ne_term hc a k.isLt hk

/-! ## Pure operations (40_integer_codec.md R111, 41_frame_codec.md R131, 20_memory.md R47) -/

/-- In every state of the configuration `c` the operation `f` adds one and the same response and changes nothing. -/
def AnswersByConfig (c : Config) (f : State → Result) : Prop :=
  ∃ r : Response, ∀ s : State, s.cfg = c → f s = .next (s.respond r)

theorem execEncf_answersByConfig (c : Config) (bc : Bool) (rcpt : DevId) (p : Buffer) :
    AnswersByConfig c (execEncf bc rcpt p) := by
  by_cases h : frameLen p < 1 ∨ frameLen p > 14
  · exact ⟨_, fun s _ => if_pos h⟩
  · exact ⟨(Response.driveBytes (buildFrame c bc rcpt p.bytes) .undriven).finish, by rintro s rfl; exact if_neg h⟩

theorem execDecf_answersByConfig (c : Config) (f : Buffer) : AnswersByConfig c (execDecf f) := by
  cases h : decodeFrame c f with
  | error r => exact ⟨r, by rintro s rfl; simp only [execDecf, h]; rfl⟩
  | ok r => exact ⟨r.finish, by rintro s rfl; simp only [execDecf, h]; rfl⟩

theorem pure_answersByConfig {i : Instr} (hi : i.isPure = true) (c : Config) : AnswersByConfig c (exec i) := by
  have hdecw (b0 b1 b2 b3 : Byte) : AnswersByConfig c (exec (.decw b0 b1 b2 b3)) := by
    cases h : wordOfNibbles b0 b1 b2 b3 with
    | none => exact ⟨_, fun s _ => exec_decw_of_none s h⟩
    | some w => exact ⟨_, fun s _ => exec_decw_of_some s h⟩
  cases i with
  | encw a => exact ⟨_, fun s _ => exec_encw s⟩
  | decw b0 b1 b2 b3 => exact hdecw b0 b1 b2 b3
  | encs a lim =>
    obtain h | h := le_or_gt a.toInt.natAbs lim.toNat
    · exact ⟨_, fun s _ => exec_encs_of_le s h⟩
    · exact ⟨_, fun s _ => exec_encs_of_lt s h⟩
  | decs b0 b1 b2 b3 =>
    obtain ⟨r, hr⟩ := hdecw b0 b1 b2 b3
    exact ⟨r, fun s hs => (exec_decs_eq_decw s b0 b1 b2 b3).trans (hr s hs)⟩
  | encf bc rcpt p => exact execEncf_answersByConfig c bc rcpt p
  | decf f => exact execDecf_answersByConfig c f
  | errd | illegal0 | illegalE | illegalF => exact ⟨_, fun s _ => rfl⟩
  | sack | scmp | recv | wstart | wack | wtmo => cases hi

/-! ## The obligations of 40_integer_codec.md -/

/-- Settles O10: ENCS gives ENCW's bytes within its limit, and no byte over it. -/
theorem encodedWordBytesDifferFromTerm : Obligations.EncodedWordBytesDifferFromTerm := by
  rintro i s t r hc (⟨a, rfl⟩ | ⟨a, lim, rfl⟩) h ht k hk
  · exact exec_encw_obuf_ne_term hc h ht k hk
  obtain hle | hlt := le_or_gt a.toInt.natAbs lim.toNat
  · exact exec_encw_obuf_ne_term hc ((exec_encs_eq_encw s hle).symm.trans h) ht k hk
  · cases (exec_encs_of_lt s hlt).symm.trans h
    cases ht
    exact absurd hk (Nat.not_lt_zero _)

/-- Settles O12: the four nibbles of a word, put back together, are the word. -/
theorem decwInvertsEncw : Obligations.DecwInvertsEncw :=
  fun u s s' => ⟨.ofNibbles u, exec_encw s, exec_decw_of_some s' (wordOfNibbles_ofNibbles u)⟩

/-- Settles O13: the two branches of the magnitude limit, and within it the sign's two branches of `signedWord`. -/
theorem encsTransmitsSignedWord : Obligations.EncsTransmitsSignedWord := by
  intro a lim s
  refine ⟨fun hle => ⟨signedWord a.toInt, fun hneg => if_pos hneg, fun hpos => if_neg hpos.not_gt, ?_⟩,
    exec_encs_of_lt s⟩
  rw [exec_encs_of_le s hle, Response.ofNibbles_eq, State.respond]

/-- Settles O14: the transmitted word is the two's complement of the operand's value, the operand itself. -/
theorem encsTransmitsTwosComplement : Obligations.EncsTransmitsTwosComplement :=
  fun _ _ s => exec_encs_eq_encw s

/-- Settles O15: the two branches of the encoding check, and within it bit 15's two branches of `signedValue`. -/
theorem decsRecoversSignedValue : Obligations.DecsRecoversSignedValue := by
  intro b0 b1 b2 b3 s
  refine ⟨?_, fun h => exec_decs_of_none s (wordOfNibbles_of_not_hiNibble_zero h)⟩
  rintro h w rfl
  exact ⟨signedValue _, fun hneg => if_pos hneg, fun hpos => if_neg (Bool.eq_false_iff.1 hpos),
    exec_decs_of_some s (wordOfNibbles_of_hiNibble_zero h)⟩

/-- Settles O16: both refuse the same bytes, and the signed value cut to 16 bits is the word. -/
theorem decsAnswersAsDecw : Obligations.DecsAnswersAsDecw :=
  fun b0 b1 b2 b3 s => exec_decs_eq_decw s b0 b1 b2 b3

/-- Settles O17: ENCS is ENCW within the limit and DECS is DECW, so this is the round trip of O12. -/
theorem decsInvertsEncs : Obligations.DecsInvertsEncs := by
  intro a lim s s' hle
  obtain ⟨r, henc, hdec⟩ := decwInvertsEncw a s s'
  exact ⟨r, (exec_encs_eq_encw s hle).trans henc, a, rfl, (exec_decs_eq_decw s' _ _ _ _).trans hdec⟩

/-- Settles O40: a pure operation reads nothing of the state but its configuration. -/
theorem pureOperationsIgnoreAndKeepState : Obligations.PureOperationsIgnoreAndKeepState := by
  intro i hi s
  obtain ⟨r, hr⟩ := pure_answersByConfig hi s.cfg
  exact ⟨r, hr s rfl, hr⟩

/-- Settles O9: the port spelled out, place by place. -/
theorem encwGivesNibbleBytes : Obligations.EncwGivesNibbleBytes := by
  intro a s
  rw [exec_encw, Response.ofNibbles_eq, State.respond]

/-- Settles O11: the two branches of the encoding check. -/
theorem decwReassemblesOrRefuses : Obligations.DecwReassemblesOrRefuses :=
  fun _ _ _ _ s => ⟨fun h => exec_decw_of_some s (wordOfNibbles_of_hiNibble_zero h),
    fun h => exec_decw_of_none s (wordOfNibbles_of_not_hiNibble_zero h)⟩

end Sys2Proof.Machine
end

section
namespace Sys2Proof

theorem Buffer.length_of_wf {b : Buffer} (h : b.wf = true) (hlen : b.len.toNat ≤ 16) :
    b.bytes.length = b.len.toNat :=
  (Buffer.wf_iff.1 h).trans (if_pos hlen)

namespace Machine

/-! ## The fields a frame is taken apart into (41_frame_codec.md R120, 30_encoding.md R79, 42_error_decoder.md R142) -/

/-- The sender of an outgoing header is the controller. -/
theorem header_sender (bc : Bool) (rcpt : DevId) : (header bc rcpt).extractLsb' 4 3 = 0 := by
  cases bc <;> revert rcpt <;> decide

theorem header_broadcastFlag (bc : Bool) (rcpt : DevId) : (header bc rcpt).getLsbD 3 = bc := by
  cases bc <;> revert rcpt <;> decide

/-- A broadcast header names no recipient. -/
theorem header_recipient (bc : Bool) (rcpt : DevId) :
    (header bc rcpt).extractLsb' 0 3 = if bc then 0 else rcpt := by
  cases bc <;> revert rcpt <;> decide

theorem replyKind_code (t : BitVec 4) :
    (replyKind t).code = if t = 4 then 1 else if t = 5 then 2 else 0 := by
  unfold replyKind typeAck typeCompletion
  split_ifs <;> rfl

/-- The decoder's first row that matches, row by row. -/
theorem errdecode_sub_code (k : Socket) (c : Byte) : (errdecode k c).sub.code = deviceErrorRow k c := by
  unfold deviceErrorRow
  split
  case h_6 h4 h5 h41 h2 h3 => -- no row of the table
    have h2 := not_and.2 h2
    have h3 := not_and.2 h3
    simp_all [errdecode, ← BitVec.toNat_inj, DevSub.code, -not_and]
  all_goals simp_all [errdecode, ← BitVec.toNat_inj, DevSub.code]

/-! ## ENCF (41_frame_codec.md R120, R121) -/

/-- The answer of ENCF where the payload's length passes: the frame it builds. -/
def Response.ofFrame (c : Config) (bc : Bool) (rcpt : DevId) (p : Buffer) : Response :=
  (Response.driveBytes (buildFrame c bc rcpt p.bytes) .undriven).finish

section Encf
variable {bc : Bool} {rcpt : DevId} {p : Buffer}

theorem exec_encf_of_len (s : State) (h1 : 1 ≤ p.len.toNat) (h14 : p.len.toNat ≤ 14) :
    exec (.encf bc rcpt p) s = .next (s.respond (.ofFrame s.cfg bc rcpt p)) :=
  if_neg (not_or.2 ⟨h1.not_gt, h14.not_gt⟩)

theorem exec_encf_of_not_len (s : State) (h : p.len.toNat < 1 ∨ 14 < p.len.toNat) :
    exec (.encf bc rcpt p) s = .next (s.respond (Response.raise .payloadTooLarge .undriven)) :=
  if_pos h

theorem buildFrame_length_of_wf (c : Config) (hwf : p.wf = true) (h14 : p.len.toNat ≤ 14) :
    (buildFrame c bc rcpt p.bytes).length = p.len.toNat + 2 := by
  rw [buildFrame_length, Buffer.length_of_wf hwf (by omega)]

theorem Response.ofFrame_olen (c : Config) (hwf : p.wf = true) (h14 : p.len.toNat ≤ 14) :
    (Response.ofFrame c bc rcpt p).olen = p.len + 2 := by
  change BitVec.ofNat 5 (buildFrame c bc rcpt p.bytes).length = _
  rw [buildFrame_length_of_wf c hwf h14]
  bv_omega

theorem Response.ofFrame_obuf (c : Config) (hwf : p.wf = true) (h14 : p.len.toNat ≤ 14) :
    (Response.ofFrame c bc rcpt p).obuf.toList =
      buildFrame c bc rcpt p.bytes ++ List.replicate (14 - p.len.toNat) 0 := by
  have hlen := buildFrame_length_of_wf (bc := bc) (rcpt := rcpt) c hwf h14
  refine (padTo16_toList (by omega)).trans ?_
  rw [hlen, show 16 - (p.len.toNat + 2) = 14 - p.len.toNat by omega]

end Encf

/-! ## DECF (41_frame_codec.md R123 to R130), check by check

The fields the frame decoder drives, `parsedFields`, are `Response.headerOf` by unfolding both. -/

section Decf
variable {c : Config} {f : Buffer} {r : Response}

theorem exec_decf_of_error {s : State} (h : decodeFrame s.cfg f = .error r) :
    exec (.decf f) s = .next (s.respond r) := by
  simp only [exec, execDecf, h]
  rfl

theorem exec_decf_of_ok {s : State} (h : decodeFrame s.cfg f = .ok r) :
    exec (.decf f) s = .next (s.respond r.finish) := by
  simp only [exec, execDecf, h]
  rfl

/-- The framing checks are the negation of `Framed`. -/
theorem not_framed_iff :
    ¬Framed c f ↔ f.len.toNat < 3 ∨ 16 < f.len.toNat ∨ f.bytes.getD (f.len.toNat - 1) 0 ≠ c.term := by
  simp only [Framed, not_and_or, not_le, ne_eq]

theorem decodeFrame_of_not_framed (h : ¬Framed c f) :
    decodeFrame c f = .error (Response.raise .protocolFraming .undriven) := by
  obtain ⟨-, hd⟩ | ⟨hfr, -⟩ := decodeFrame_cases c f
  · exact hd
  · exact absurd hfr h

theorem decodeFrame_of_netChange (hfr : Framed c f) (hnc : IsNetChange c f) :
    decodeFrame c f = .error ((Response.headerOf f).raise .networkChange) := by
  obtain ⟨hbad, -⟩ | ⟨-, ⟨-, hd⟩ | ⟨hno, -⟩⟩ := decodeFrame_cases c f
  · exact absurd hfr (not_framed_iff.2 hbad)
  · exact hd
  · exact absurd hnc hno

/-- The checks after those on framing and network change: the message type, then the length of an error frame. -/
theorem decodeFrame_of_not_netChange (hfr : Framed c f) (hnc : ¬IsNetChange c f) :
    (qqType (frameByte f 1) = typeError ∧ f.len.toNat ≠ 4 ∧
      decodeFrame c f = .error ((Response.headerOf f).raise .protocolError)) ∨
    (qqType (frameByte f 1) = typeError ∧ f.len.toNat = 4 ∧
      decodeFrame c f = .error
        ((Response.headerOf f).raiseDevice (errdecode (qqSocket (frameByte f 1)) (frameByte f 2)))) ∨
    (qqType (frameByte f 1) ≠ typeError ∧
      decodeFrame c f = .ok { (Response.headerOf f).driveBytes (replyPayload f) with
                              pkind := (replyKind (qqType (frameByte f 1))).code }) := by
  obtain ⟨hbad, -⟩ | ⟨-, ⟨hyes, -⟩ | ⟨-, h⟩⟩ := decodeFrame_cases c f
  · exact absurd hfr (not_framed_iff.2 hbad)
  · exact absurd hyes hnc
  · exact h

theorem Response.headerOf_hasHeaderOf (f : Buffer) : (headerOf f).HasHeaderOf f :=
  ⟨rfl, rfl, rfl, rfl, rfl, rfl⟩

/-- The answer to a framed buffer, a reply or an error, carries its header fields (R128). -/
theorem exec_decf_of_framed {s : State} (hfr : Framed s.cfg f) :
    ∃ r : Response, exec (.decf f) s = .next (s.respond r) ∧ r.HasHeaderOf f := by
  have hhdr := Response.headerOf_hasHeaderOf f
  by_cases hnc : IsNetChange s.cfg f
  · exact ⟨_, exec_decf_of_error (decodeFrame_of_netChange hfr hnc), hhdr⟩
  obtain ⟨-, -, hd⟩ | ⟨-, -, hd⟩ | ⟨-, hd⟩ := decodeFrame_of_not_netChange hfr hnc
  · exact ⟨_, exec_decf_of_error hd, hhdr⟩
  · exact ⟨_, exec_decf_of_error hd, hhdr⟩
  · exact ⟨_, exec_decf_of_ok hd, hhdr⟩

/-- The answer of DECF to a parsed reply (R128, R129). -/
def Response.ofReply (f : Buffer) : Response :=
  Response.finish { (Response.headerOf f).driveBytes (replyPayload f) with
                    pkind := (replyKind (qqType (frameByte f 1))).code }

theorem exec_decf_of_reply {s : State} (hfr : Framed s.cfg f) (hnc : ¬IsNetChange s.cfg f)
    (htype : (f.bytes.getD 1 0).extractLsb' 4 4 ≠ 6) :
    exec (.decf f) s = .next (s.respond (.ofReply f)) := by
  obtain ⟨herr, -⟩ | ⟨herr, -⟩ | ⟨-, hd⟩ := decodeFrame_of_not_netChange hfr hnc
  · exact absurd herr htype
  · exact absurd herr htype
  · exact exec_decf_of_ok hd

theorem Response.ofReply_olen (hwf : f.wf = true) (h3 : 3 ≤ f.len.toNat) (h16 : f.len.toNat ≤ 16) :
    (Response.ofReply f).olen = f.len - 2 := by
  change BitVec.ofNat 5 (replyPayload f).length = _
  rw [replyPayload_length hwf h16, frameLen]
  bv_omega

theorem Response.ofReply_obuf (hwf : f.wf = true) (h3 : 3 ≤ f.len.toNat) (h16 : f.len.toNat ≤ 16) :
    (Response.ofReply f).obuf.toList = replyPayload f ++ List.replicate (18 - f.len.toNat) 0 := by
  have hlen : (replyPayload f).length = f.len.toNat - 2 := replyPayload_length hwf h16
  refine (padTo16_toList (by omega)).trans ?_
  rw [hlen, show 16 - (f.len.toNat - 2) = 18 - f.len.toNat by omega]

end Decf

/-! ## Frame round trip (41_frame_codec.md R132) -/

/-- The buffer a host hands to DECF where it passes on ENCF's frame. -/
def builtFrame (c : Config) (bc : Bool) (rcpt : DevId) (p : Buffer) : Buffer :=
  { len := p.len + 2, bytes := buildFrame c bc rcpt p.bytes }

section BuiltFrame
variable {c : Config} {bc : Bool} {rcpt : DevId} {p : Buffer}

theorem builtFrame_len (h14 : p.len.toNat ≤ 14) : (builtFrame c bc rcpt p).len.toNat = p.len.toNat + 2 := by
  change (p.len + 2).toNat = _
  bv_omega

theorem builtFrame_wf (hwf : p.wf = true) (h14 : p.len.toNat ≤ 14) : (builtFrame c bc rcpt p).wf = true := by
  have hlen : (builtFrame c bc rcpt p).len.toNat = p.len.toNat + 2 := builtFrame_len h14
  rw [Buffer.wf_iff, readableBytes, if_pos (by omega), hlen]
  exact buildFrame_length_of_wf c hwf h14

/-- The first `olen` bytes of ENCF's port are its frame. -/
theorem Response.ofFrame_readBack (hwf : p.wf = true) (h14 : p.len.toNat ≤ 14) :
    Buffer.mk (Response.ofFrame c bc rcpt p).olen
      ((Response.ofFrame c bc rcpt p).obuf.toList.take (Response.ofFrame c bc rcpt p).olen.toNat) =
    builtFrame c bc rcpt p := by
  have hframe : (buildFrame c bc rcpt p.bytes).length = (p.len + 2).toNat :=
    (buildFrame_length_of_wf c hwf h14).trans (builtFrame_len (c := c) (bc := bc) (rcpt := rcpt) h14).symm
  rw [Response.ofFrame_obuf c hwf h14, Response.ofFrame_olen c hwf h14, List.take_left' hframe]
  rfl

/-- The frame's last byte is the terminator. -/
theorem builtFrame_framed (hwf : p.wf = true) (h1 : 1 ≤ p.len.toNat) (h14 : p.len.toNat ≤ 14) :
    Framed c (builtFrame c bc rcpt p) := by
  have hlen : (builtFrame c bc rcpt p).len.toNat = p.len.toNat + 2 := builtFrame_len h14
  have hbytes := Buffer.length_of_wf hwf (by omega)
  refine ⟨by omega, by omega, ?_⟩
  rw [hlen]
  simp [builtFrame, buildFrame, ← hbytes]

/-- The QQ byte of the frame is the payload's first byte. -/
theorem builtFrame_qq (hwf : p.wf = true) (h1 : 1 ≤ p.len.toNat) (h14 : p.len.toNat ≤ 14) :
    (builtFrame c bc rcpt p).bytes.getD 1 0 = p.bytes.getD 0 0 :=
  have hpos : 0 < p.bytes.length := (Buffer.length_of_wf hwf (by omega)).symm ▸ h1
  List.getD_append p.bytes [c.term] 0 0 hpos

theorem builtFrame_not_netChange (hwf : p.wf = true) (h1 : 1 ≤ p.len.toNat) (h14 : p.len.toNat ≤ 14)
    (h : ¬(p.len.toNat = 1 ∧ p.bytes.getD 0 0 = c.netchg)) : ¬IsNetChange c (builtFrame c bc rcpt p) := by
  rw [IsNetChange, builtFrame_len h14, builtFrame_qq hwf h1 h14]
  rintro ⟨hlen, hbyte⟩
  exact h ⟨by omega, hbyte⟩

/-- What stands between header and terminator is the payload. -/
theorem builtFrame_replyPayload (hwf : p.wf = true) (h14 : p.len.toNat ≤ 14) :
    replyPayload (builtFrame c bc rcpt p) = p.bytes := by
  rw [replyPayload, frameLen, builtFrame_len h14]
  exact List.take_left' (Buffer.length_of_wf hwf (by omega))

end BuiltFrame

/-! ## The obligations of 41_frame_codec.md -/

/-- Settles O18: the two branches of the length check, and the port's padding after the frame. -/
theorem encfBuildsFrame : Obligations.EncfBuildsFrame := by
  intro bc rcpt p s hwf
  refine ⟨fun ⟨h1, h14⟩ => ⟨(Response.ofFrame s.cfg bc rcpt p).obuf, Response.ofFrame_obuf s.cfg hwf h14, ?_⟩,
    fun h => exec_encf_of_not_len s (by omega)⟩
  rw [exec_encf_of_len s h1 h14, ← Response.ofFrame_olen s.cfg hwf h14]
  rfl

/-- Settles O21: a framed buffer's answer carries its header, another's is the error with no field driven. -/
theorem decfDrivesHeaderOnceFramed : Obligations.DecfDrivesHeaderOnceFramed := by
  intro f s
  by_cases hfr : Framed s.cfg f
  · obtain ⟨r, hexec, hhdr⟩ := exec_decf_of_framed hfr
    exact ⟨r, hexec, fun _ => hhdr, absurd hfr⟩
  · exact ⟨_, exec_decf_of_error (decodeFrame_of_not_framed hfr), fun h => absurd h hfr, fun _ => ⟨rfl, rfl⟩⟩

/-- Settles O23: of the cases after the network change, the two of message type 6. -/
theorem decfRaisesOnErrorFrames : Obligations.DecfRaisesOnErrorFrames := by
  intro f s hfr hnc htype
  obtain ⟨-, hlen, hd⟩ | ⟨-, hlen, hd⟩ | ⟨hreply, -⟩ := decodeFrame_of_not_netChange hfr hnc
  · exact ⟨fun h4 => absurd h4 hlen, fun _ => exec_decf_of_error hd⟩
  · refine ⟨fun _ => ?_, absurd hlen⟩
    rw [exec_decf_of_error hd, ← errdecode_sub_code]
    rfl
  · exact absurd htype hreply

/-- Settles O24: the last check passed, the port is filled with the payload and zeros. -/
theorem decfGivesParsedReply : Obligations.DecfGivesParsedReply := by
  intro f s hwf hfr hnc htype
  have ⟨h3, h16, _⟩ := hfr
  refine ⟨(Response.ofReply f).obuf, Response.ofReply_obuf hwf h3 h16, ?_⟩
  rw [exec_decf_of_reply hfr hnc htype, ← Response.ofReply_olen hwf h3 h16, ← replyKind_code]
  rfl

/-- Settles O25: ENCF's frame is framed, so DECF takes its header and its payload apart again. -/
theorem decfInvertsEncf : Obligations.DecfInvertsEncf := by
  intro bc rcpt p s s' hwf h1 h14 htype hnc hcfg
  have hlen : (builtFrame s.cfg bc rcpt p).len.toNat = p.len.toNat + 2 := builtFrame_len h14
  have hwf' : (builtFrame s.cfg bc rcpt p).wf = true := builtFrame_wf hwf h14
  have hdec : exec (.decf (builtFrame s.cfg bc rcpt p)) s' =
      .next (s'.respond (.ofReply (builtFrame s.cfg bc rcpt p))) := by
    apply exec_decf_of_reply
    · rw [hcfg]
      exact builtFrame_framed hwf h1 h14
    · rw [hcfg]
      exact builtFrame_not_netChange hwf h1 h14 hnc
    · rwa [builtFrame_qq hwf h1 h14]
  refine ⟨_, .ofReply (builtFrame s.cfg bc rcpt p), exec_encf_of_len s h1 h14, ?_, rfl, header_sender bc rcpt,
    header_broadcastFlag bc rcpt, header_recipient bc rcpt, ?_, ?_⟩
  · rw [Response.ofFrame_readBack hwf h14, hdec]
    rfl
  · rw [Response.ofReply_olen hwf' (by omega) (by omega)]
    exact BitVec.add_sub_cancel p.len 2
  · rw [Response.ofReply_obuf hwf' (by omega) (by omega), builtFrame_replyPayload hwf h14]
    exact List.take_left' (Buffer.length_of_wf hwf (by omega))

/-- Settles O20: the framing checks come first. -/
theorem decfRefusesBadFraming : Obligations.DecfRefusesBadFraming :=
  fun _ _ h => exec_decf_of_error (decodeFrame_of_not_framed (not_framed_iff.2 h))

/-- Settles O22: the network change is checked before the message type. -/
theorem decfReportsNetworkChange : Obligations.DecfReportsNetworkChange :=
  fun _ _ hfr hnc => exec_decf_of_error (decodeFrame_of_netChange hfr hnc)

end Machine
end Sys2Proof
end

section
namespace Sys2Proof.Machine

/-! # The error decoder (42_error_decoder.md) -/

/-- The whole effect of ERRD (R141): one response is added, the error of the operands' row. -/
theorem exec_errd (skt : Socket) (code : Byte) (s : State) :
    exec (.errd skt code) s = .next (s.respond (Response.raiseDevice (errdecode skt code) .undriven)) := rfl

/-- Settles O26: the sub-kind of the answer is the table's row; its code and socket are the operands. -/
theorem errdAlwaysRaisesDeviceError : Obligations.ErrdAlwaysRaisesDeviceError := by
  intro skt code s
  rw [exec_errd, ← errdecode_sub_code]
  rfl

end Sys2Proof.Machine
end

section
namespace Sys2Proof.Machine

/-! # The session (43_session.md)

## The session update, row by row (R150 to R153) -/

/-- A wait for a key is pending exactly where `WAIT` holds that key and `V = 1`. -/
theorem State.awaits_iff_wait_eq {s : State} {snd : DevId} {skt : Socket} :
    s.awaits snd skt = true ↔ s.wait = ⟨true, snd, skt⟩ := by
  rw [State.awaits_iff, ← WaitReg.mk.injEq]

theorem State.clearWait_of_not_waiting {s : State} (hv : s.wait.v = false) : s.clearWait = s := by
  rw [State.clearWait, ← hv]

/-- An error of SACK, SCMP or RECV: `WAIT.V` is 0 after it, and it reports ABORTED where it was 1 before (R153). -/
theorem failSession_eq {r : Response} (hw : r.waitEnd = 0) (s : State) : failSession r s =
    .next (s.clearWait.respond { r with waitEnd := if s.wait.v then 2 else 0 }) := by
  cases hv : s.wait.v with
  | true => exact failSession_next.2 (.inl ⟨hv, rfl⟩)
  | false =>
    have hr : { r with waitEnd := 0 } = r := by rw [← hw]
    simp only [State.clearWait_of_not_waiting hv, Bool.false_eq_true, if_false, hr]
    exact failSession_next.2 (.inr ⟨hv, rfl⟩)

section Rows
variable {ev : Event} {snd : DevId} {skt : Socket} {r : Response} {s : State}

theorem sessionUpdate_of_socketZero (h0 : skt = 0) :
    sessionUpdate ev snd skt r s = .next (s.respond r.finish) :=
  if_pos h0

theorem sessionUpdate_ack_of_idle (h0 : skt ≠ 0) (hc : s.cell snd skt = .idle) :
    sessionUpdate .ack snd skt r s = .next ((s.setCell snd skt .outstanding).respond r.finish) :=
  sessionUpdate_next.2 (.inr (.inl ⟨h0, rfl, hc, rfl⟩))

theorem sessionUpdate_ack_of_outstanding (h0 : skt ≠ 0) (hc : s.cell snd skt = .outstanding) (hw : r.waitEnd = 0) :
    sessionUpdate .ack snd skt r s =
      .next (s.clearWait.respond { r.raise .duplicateAck with waitEnd := if s.wait.v then 2 else 0 }) :=
  sessionUpdate_next.2 (.inr (.inr (.inl ⟨h0, rfl, hc, failSession_eq (r := r.raise .duplicateAck) hw s⟩)))

theorem sessionUpdate_ack_of_completed (h0 : skt ≠ 0) (hc : s.cell snd skt = .completed) :
    sessionUpdate .ack snd skt r s =
      .next ((s.setCell snd skt .outstanding).respond (r.note .staleCompletionDiscarded).finish) :=
  sessionUpdate_next.2 (.inr (.inr (.inr (.inl ⟨h0, rfl, hc, rfl⟩))))

theorem sessionUpdate_cmpl_of_awaited (h0 : skt ≠ 0) (hc : s.cell snd skt = .outstanding)
    (hw : s.wait = ⟨true, snd, skt⟩) : sessionUpdate .cmpl snd skt r s =
      .next ((s.setCell snd skt .idle).clearWait.respond (r.endWait .done).finish) :=
  have ha := completeKey_next.2 (.inl ⟨State.awaits_iff_wait_eq.2 hw, rfl⟩)
  sessionUpdate_next.2 (.inr (.inr (.inr (.inr (.inl ⟨h0, rfl, hc, ha⟩)))))

theorem sessionUpdate_cmpl_of_not_awaited (h0 : skt ≠ 0) (hc : s.cell snd skt = .outstanding)
    (hw : s.wait ≠ ⟨true, snd, skt⟩) : sessionUpdate .cmpl snd skt r s =
      .next ((s.setCell snd skt .completed).respond r.finish) :=
  have ha := completeKey_next.2 (.inr ⟨Bool.eq_false_iff.2 (mt State.awaits_iff_wait_eq.1 hw), rfl⟩)
  sessionUpdate_next.2 (.inr (.inr (.inr (.inr (.inl ⟨h0, rfl, hc, ha⟩)))))

theorem sessionUpdate_cmpl_of_not_outstanding (h0 : skt ≠ 0) (hc : s.cell snd skt ≠ .outstanding) :
    sessionUpdate .cmpl snd skt r s = .next (s.respond (r.note .unexpectedCompletion).finish) :=
  sessionUpdate_next.2 (.inr (.inr (.inr (.inr (.inr ⟨h0, rfl, hc, rfl⟩)))))

/-! ## The start of a wait (R160 to R163) and its timeout (R170), case by case -/

theorem startWait_of_refused (h : s.wait.v = true ∨ skt = 0 ∨ s.cell snd skt = .idle) :
    startWait snd skt s = .next (s.respond (Response.raise .invalidArgument .undriven)) :=
  startWait_next.2 (.inl ⟨h, rfl⟩)

theorem startWait_of_completed (hv : s.wait.v = false) (h0 : skt ≠ 0) (hc : s.cell snd skt = .completed) :
    startWait snd skt s = .next ((s.setCell snd skt .idle).respond (Response.endWait .done .undriven).finish) :=
  startWait_next.2 (.inr (.inl ⟨hv, h0, hc, rfl⟩))

theorem startWait_of_outstanding (hv : s.wait.v = false) (h0 : skt ≠ 0) (hc : s.cell snd skt = .outstanding) :
    startWait snd skt s = .next ((s.beginWait snd skt).respond Response.undriven.pend) :=
  startWait_next.2 (.inr (.inr ⟨hv, h0, hc, rfl⟩))

theorem exec_wtmo_of_waiting (hv : s.wait.v = true) :
    exec .wtmo s = .next (s.clearWait.respond (Response.raise .timeout (.endWait .timeout .undriven))) :=
  if_pos hv

theorem exec_wtmo_of_not_waiting (hv : s.wait.v = false) :
    exec .wtmo s = .next (s.respond (Response.raise .invalidArgument .undriven)) :=
  if_neg (Bool.eq_false_iff.1 hv)

end Rows

/-- A write to one cell keeps the others. -/
theorem State.setCell_otherCellsKept (s : State) (snd : DevId) (skt : Socket) (st : SessSt) :
    OtherCellsKept s (s.setCell snd skt st) snd skt :=
  fun _ _ h => State.setCell_cell_other _ _ _ _ h

/-- Where the one cell that may have changed holds its value from before, the table is as before. -/
theorem State.sess_eq_of_otherCellsKept {s t : State} {snd : DevId} {skt : Socket}
    (hkept : OtherCellsKept s t snd skt) (hc : t.cell snd skt = s.cell snd skt) : t.sess = s.sess := by
  refine State.sess_ext fun a b => ?_
  by_cases hk : (a, b) = (snd, skt)
  · cases hk
    exact hc
  · exact hkept a b hk

/-! ## The frames RECV and WACK take apart (R156 to R158, R166) -/

section Frames
variable {f : Buffer} {r : Response} {s : State}

theorem exec_recv_of_error (hd : decodeFrame s.cfg f = .error r) : exec (.recv f) s =
    .next (s.clearWait.respond { r with waitEnd := if s.wait.v then 2 else 0 }) := by
  have hfail : exec (.recv f) s = failSession r s := by simp only [exec, execRecv, hd]
  exact hfail.trans (failSession_eq (decodeFrame_error hd).2 s)

theorem exec_recv_of_ok (hd : decodeFrame s.cfg f = .ok r) : exec (.recv f) s = routeReply r s := by
  simp only [exec, execRecv, hd]

theorem routeReply_of_ack (h : r.ptype = 4) : routeReply r s = sessionUpdate .ack r.psnd r.pskt r s :=
  if_pos h

theorem routeReply_of_completion (h : r.ptype = 5) : routeReply r s = sessionUpdate .cmpl r.psnd r.pskt r s :=
  (if_neg (by simp [h, typeAck])).trans (if_pos h)

theorem routeReply_of_untracked (h : r.pskt = 0 ∨ r.ptype ≠ 4 ∧ r.ptype ≠ 5) :
    routeReply r s = .next (s.respond r.finish) := by
  unfold routeReply
  obtain h0 | ⟨hack, hcmpl⟩ := h
  · split_ifs
    · exact sessionUpdate_of_socketZero h0
    · exact sessionUpdate_of_socketZero h0
    · rfl
  · exact (if_neg hack).trans (if_neg hcmpl)

/-- A framed buffer is a reply where it is neither a network change nor an error frame (41_frame_codec.md R129). -/
theorem decodeFrame_of_reply {c : Config} (hfr : Framed c f) (hnc : ¬IsNetChange c f)
    (htype : (f.bytes.getD 1 0).extractLsb' 4 4 ≠ 6) : ∃ r, decodeFrame c f = .ok r ∧ r.HasHeaderOf f := by
  obtain ⟨herr, -⟩ | ⟨herr, -⟩ | ⟨-, hd⟩ := decodeFrame_of_not_netChange hfr hnc
  · exact absurd herr htype
  · exact absurd herr htype
  · exact ⟨_, hd, Response.headerOf_hasHeaderOf f⟩

/-- A framed buffer is an error where it is a network change or an error frame (41_frame_codec.md R127, R130). -/
theorem decodeFrame_of_errorFrame {c : Config} (hfr : Framed c f)
    (h : IsNetChange c f ∨ (f.bytes.getD 1 0).extractLsb' 4 4 = 6) : ∃ r, decodeFrame c f = .error r := by
  by_cases hnc : IsNetChange c f
  · exact ⟨_, decodeFrame_of_netChange hfr hnc⟩
  obtain ⟨-, -, hd⟩ | ⟨-, -, hd⟩ | ⟨hreply, -⟩ := decodeFrame_of_not_netChange hfr hnc
  · exact ⟨_, hd⟩
  · exact ⟨_, hd⟩
  · exact absurd (h.resolve_left hnc) hreply

theorem exec_wack_of_ack (h : f.len.toNat = 3 ∧ (f.bytes.getD 1 0).extractLsb' 4 4 = 4) : exec (.wack f) s =
    exec (.wstart ((f.bytes.getD 0 0).extractLsb' 4 3) ((f.bytes.getD 1 0).extractLsb' 0 4)) s :=
  if_neg (not_or.2 ⟨not_not.2 h.1, not_not.2 h.2⟩)

theorem exec_wack_of_not_ack (h : ¬(f.len.toNat = 3 ∧ (f.bytes.getD 1 0).extractLsb' 4 4 = 4)) :
    exec (.wack f) s = .next (s.respond (Response.raise .invalidArgument .undriven)) :=
  if_pos (not_and_or.1 h)

end Frames

/-- Whichever operation feeds an event, it is the session update of that event, with no session field driven before. -/
theorem exec_of_feeds {s : State} {i : Instr} {ev : Event} {snd : DevId} {skt : Socket}
    (h : Feeds s.cfg i ev snd skt) : ∃ r : Response, r.anomaly = 0 ∧ r.waitEnd = 0 ∧
      exec i s = sessionUpdate ev snd skt r s := by
  obtain ⟨rfl, rfl⟩ | ⟨rfl, rfl⟩ | ⟨f, rfl, hfr, hnc, rfl, rfl, htype⟩ := h
  · exact ⟨.undriven, rfl, rfl, rfl⟩
  · exact ⟨.undriven, rfl, rfl, rfl⟩
  · obtain ⟨r, hd, -, hsnd, -, -, hptype, hskt⟩ := decodeFrame_of_reply hfr hnc (by rw [htype]; cases ev <;> decide)
    obtain ⟨-, -, -, hw⟩ := decodeFrame_ok hd
    refine ⟨r, (decodeFrame_ok_inProgress hd).anomalyUndriven, hw, (exec_recv_of_ok hd).trans ?_⟩
    rw [← hsnd, ← hskt]
    cases ev with
    | ack => exact routeReply_of_ack (hptype.trans htype)
    | cmpl => exact routeReply_of_completion (hptype.trans htype)

/-! ## What an operation does to its key, as a function of the key's cell and of `WAIT` -/

/-- The response `r` with the four fields of `a` that the session update drives. -/
def Response.withSession (r a : Response) : Response :=
  { r with status := a.status, err := a.err, anomaly := a.anomaly, waitEnd := a.waitEnd }

/-- The new status of a key's cell, the new `WAIT`, and the response whose session fields are driven. -/
structure KeyEffect where
  cell   : SessSt
  wait   : WaitReg
  answer : Response

/-- The state after the effect on the key `(snd, skt)`, where `r` holds the other fields of the response. -/
def KeyEffect.apply (e : KeyEffect) (snd : DevId) (skt : Socket) (r : Response) (s : State) : State :=
  (State.setCell { s with wait := e.wait } snd skt e.cell).respond (r.withSession e.answer)

theorem Response.withSession_undriven {r : Response} (hs : r.status = 0) (he : r.err = 0) (ha : r.anomaly = 0)
    (hw : r.waitEnd = 0) : r.withSession .undriven = r := by
  cases r
  simp_all [Response.withSession, Response.undriven]

/-- A parsed reply comes with its session fields still undriven. -/
theorem decodeFrame_ok_withSession {c : Config} {f : Buffer} {r : Response} (hd : decodeFrame c f = .ok r) :
    r.withSession .undriven = r := by
  obtain ⟨-, hs, he, ha⟩ := decodeFrame_ok_inProgress hd
  obtain ⟨-, -, -, hw⟩ := decodeFrame_ok hd
  exact Response.withSession_undriven hs he ha hw

/-- An effect that leaves the cell as it was is no write to the table. -/
theorem KeyEffect.apply_of_cell_eq {snd : DevId} {skt : Socket} {s : State} {c : SessSt} (hc : s.cell snd skt = c)
    (w : WaitReg) (a r : Response) : (KeyEffect.mk c w a).apply snd skt r s =
      State.respond { s with wait := w } (r.withSession a) :=
  congrArg (State.respond · (r.withSession a)) (State.setCell_of_cell_eq { s with wait := w } snd skt c hc)

/-- The session update has one effect on its key for all states that agree on its cell and on `WAIT`, and for all fields
driven before it (R150 to R153). -/
theorem sessionUpdate_effect (ev : Event) (snd : DevId) (skt : Socket) (c : SessSt) (w : WaitReg) :
    ∃ e : KeyEffect, ∀ (r : Response) (s : State), s.cell snd skt = c → s.wait = w →
      sessionUpdate ev snd skt (r.withSession .undriven) s = .next (e.apply snd skt r s) := by
  by_cases h0 : skt = 0
  · refine ⟨⟨c, w, Response.undriven.finish⟩, ?_⟩
    rintro r s hc rfl
    rw [KeyEffect.apply_of_cell_eq hc, sessionUpdate_of_socketZero h0]
    rfl
  cases ev with
  | ack =>
    cases c with
    | idle =>
      refine ⟨⟨.outstanding, w, Response.undriven.finish⟩, ?_⟩
      rintro r s hc rfl
      exact sessionUpdate_ack_of_idle h0 hc
    | outstanding =>
      refine ⟨⟨.outstanding, { w with v := false },
        { Response.undriven.raise .duplicateAck with waitEnd := if w.v then 2 else 0 }⟩, ?_⟩
      rintro r s hc rfl
      rw [KeyEffect.apply_of_cell_eq hc, sessionUpdate_ack_of_outstanding h0 hc rfl]
      rfl
    | completed =>
      refine ⟨⟨.outstanding, w, (Response.undriven.note .staleCompletionDiscarded).finish⟩, ?_⟩
      rintro r s hc rfl
      exact sessionUpdate_ack_of_completed h0 hc
  | cmpl =>
    by_cases hc : c = .outstanding
    · by_cases hw : w = ⟨true, snd, skt⟩
      · refine ⟨⟨.idle, { w with v := false }, (Response.undriven.endWait .done).finish⟩, ?_⟩
        rintro r s rfl rfl
        exact sessionUpdate_cmpl_of_awaited h0 hc hw
      · refine ⟨⟨.completed, w, Response.undriven.finish⟩, ?_⟩
        rintro r s rfl rfl
        exact sessionUpdate_cmpl_of_not_awaited h0 hc hw
    · refine ⟨⟨c, w, (Response.undriven.note .unexpectedCompletion).finish⟩, ?_⟩
      rintro r s rfl rfl
      rw [KeyEffect.apply_of_cell_eq rfl, sessionUpdate_cmpl_of_not_outstanding h0 hc]
      rfl

/-- RECV of a reply that is routed to the update an operation `i` performs ends in the state `i` ends in, and its
response is the parsed reply with the session fields of the response of `i` (R157). -/
theorem exec_recv_of_routed {f : Buffer} {r : Response} {s : State} {i : Instr} {ev : Event}
    (hd : decodeFrame s.cfg f = .ok r) (hi : exec i s = sessionUpdate ev r.psnd r.pskt .undriven s)
    (hroute : routeReply r s = sessionUpdate ev r.psnd r.pskt r s) :
    ∃ (t : State) (ru : Response), exec i s = .next t ∧ t.responses = ru :: s.responses ∧
      exec (.recv f) s = .next { t with responses := r.withSession ru :: s.responses } := by
  obtain ⟨e, he⟩ := sessionUpdate_effect ev r.psnd r.pskt (s.cell r.psnd r.pskt) s.wait
  have hrecv := he r s rfl rfl
  rw [decodeFrame_ok_withSession hd, ← hroute, ← exec_recv_of_ok hd] at hrecv
  exact ⟨_, _, hi.trans (he .undriven s rfl rfl), rfl, hrecv⟩

/-- The start of a wait has one effect on its key for all states that agree on its cell and on `WAIT` (R160). -/
theorem startWait_effect (snd : DevId) (skt : Socket) (c : SessSt) (w : WaitReg) :
    ∃ e : KeyEffect, ∀ s : State, s.cell snd skt = c → s.wait = w →
      startWait snd skt s = .next (e.apply snd skt .undriven s) := by
  by_cases h : w.v = true ∨ skt = 0 ∨ c = .idle
  · refine ⟨⟨c, w, .raise .invalidArgument .undriven⟩, ?_⟩
    rintro s rfl rfl
    rw [KeyEffect.apply_of_cell_eq rfl, startWait_of_refused h]
    rfl
  obtain ⟨hv, h0, hidle⟩ : w.v = false ∧ skt ≠ 0 ∧ c ≠ .idle := by simpa only [not_or, Bool.not_eq_true] using h
  cases c with
  | idle => exact absurd rfl hidle
  | completed =>
    refine ⟨⟨.idle, w, (Response.endWait .done .undriven).finish⟩, ?_⟩
    rintro s hc rfl
    exact startWait_of_completed hv h0 hc
  | outstanding =>
    refine ⟨⟨.outstanding, ⟨true, snd, skt⟩, Response.undriven.pend⟩, ?_⟩
    rintro s hc rfl
    rw [KeyEffect.apply_of_cell_eq hc, startWait_of_outstanding hv h0 hc]
    rfl

/-! ## How a pending wait ends (R164) -/

theorem Instr.opcode_of_feedsEvents {i : Instr} (h : i.feedsEvents = true) :
    i.opcode = 0x8 ∨ i.opcode = 0x9 ∨ i.opcode = 0xA := by
  cases i <;> simp_all [Instr.feedsEvents, Instr.opcode]

theorem Feeds.opcode_of_cmpl {c : Config} {i : Instr} {snd : DevId} {skt : Socket}
    (h : Feeds c i .cmpl snd skt) : i.opcode = 0x9 ∨ i.opcode = 0xA := by
  obtain ⟨-, hev⟩ | ⟨rfl, -⟩ | ⟨f, rfl, -⟩ := h
  · cases hev
  · exact .inl rfl
  · exact .inr rfl

/-- A request leaves a pending wait as it is, or ends it: by consuming the awaited key, by an error, by the timeout. -/
theorem RequestEffect.pendingWait {i : Instr} {s u : State} {r : Response} (h : RequestEffect i s u r)
    (hv : s.wait.v = true) : u.wait = s.wait ∨ (u.wait = { s.wait with v := false } ∧
      (((i.opcode = 0x9 ∨ i.opcode = 0xA) ∧ r.status = 0 ∧ r.waitEnd = 1 ∧
          u.cell s.wait.snd s.wait.skt = .idle ∧ OtherCellsKept s u s.wait.snd s.wait.skt) ∨
       ((i.opcode = 0x8 ∨ i.opcode = 0x9 ∨ i.opcode = 0xA) ∧ r.status = 1 ∧ r.waitEnd = 2 ∧ u.sess = s.sess) ∨
       (i.opcode = 0xD ∧ r.status = 1 ∧ r.err = 8 ∧ r.waitEnd = 3 ∧ u.sess = s.sess))) := by
  cases h with
  | answer | refuse | track | complete => exact .inl rfl
  | abort hi _ hs he => exact .inr ⟨rfl, .inr (.inl ⟨Instr.opcode_of_feedsEvents hi, hs, he, rfl⟩)⟩
  | timeOut hi _ hs herr he => exact .inr ⟨rfl, .inr (.inr ⟨by rw [hi]; rfl, hs, herr, he, rfl⟩)⟩
  | consumeAwaited hf _ _ ha hs he =>
    obtain ⟨-, rfl, rfl⟩ := (s.awaits_iff _ _).1 ha
    exact .inr ⟨rfl, .inl ⟨hf.opcode_of_cmpl, hs, he, s.setCell_cell_same _ _ _, s.setCell_otherCellsKept _ _ _⟩⟩
  | consumeCompleted _ _ hv' | beginWait _ _ hv' => exact absurd (hv'.symm.trans hv) nofun

/-! ## The obligations of 43_session.md -/

/-- Settles O27: the three rows of an ACK, and socket 0. -/
theorem sackFollowsSessionTable : Obligations.SackFollowsSessionTable := by
  intro snd skt s
  refine ⟨sessionUpdate_of_socketZero, fun h0 hc => ?_, fun h0 hc => ?_, fun h0 hc hv => ?_, fun h0 hc hv => ?_⟩
  · exact ⟨_, sessionUpdate_ack_of_idle h0 hc, ⟨rfl, rfl, rfl⟩, rfl, s.setCell_cell_same _ _ _,
      s.setCell_otherCellsKept _ _ _⟩
  · exact ⟨_, sessionUpdate_ack_of_completed h0 hc, ⟨rfl, rfl, rfl⟩, rfl, s.setCell_cell_same _ _ _,
      s.setCell_otherCellsKept _ _ _⟩
  · refine (sessionUpdate_ack_of_outstanding h0 hc rfl).trans ?_
    rw [State.clearWait_of_not_waiting hv, hv]
    rfl
  · refine (sessionUpdate_ack_of_outstanding h0 hc rfl).trans ?_
    rw [hv]
    rfl

/-- Settles O28: the rows of a Completion, an Outstanding key's being two, and socket 0. -/
theorem scmpFollowsSessionTable : Obligations.ScmpFollowsSessionTable := by
  intro snd skt s
  refine ⟨sessionUpdate_of_socketZero, sessionUpdate_cmpl_of_not_outstanding, fun h0 hc hw => ?_, fun h0 hc hw => ?_⟩
  · exact ⟨_, sessionUpdate_cmpl_of_awaited h0 hc hw, ⟨rfl, rfl, rfl⟩, congrArg ({ · with v := false }) hw,
      s.setCell_cell_same _ _ _, s.setCell_otherCellsKept _ _ _⟩
  · exact ⟨_, sessionUpdate_cmpl_of_not_awaited h0 hc hw, ⟨rfl, rfl, rfl⟩, rfl,
      s.setCell_cell_same _ _ _, s.setCell_otherCellsKept _ _ _⟩

/-- Settles O29: whatever feeds the event, the session update answers by the event's row. -/
theorem eventsMoveKeysByTheTable : Obligations.EventsMoveKeysByTheTable := by
  intro s i ev snd skt hf h0
  obtain ⟨r, ha, hw, hexec⟩ := exec_of_feeds hf
  rw [hexec]
  cases ev with
  | ack =>
    cases hc : s.cell snd skt with
    | idle => exact ⟨_, _, sessionUpdate_ack_of_idle h0 hc, ⟨rfl, rfl, rfl⟩, s.setCell_otherCellsKept _ _ _,
        s.setCell_cell_same _ _ _, rfl, rfl, ha, hw⟩
    | outstanding => exact ⟨_, _, sessionUpdate_ack_of_outstanding h0 hc hw, ⟨rfl, rfl, rfl⟩, fun _ _ _ => rfl,
        hc, rfl, rfl, ha⟩
    | completed => exact ⟨_, _, sessionUpdate_ack_of_completed h0 hc, ⟨rfl, rfl, rfl⟩, s.setCell_otherCellsKept _ _ _,
        s.setCell_cell_same _ _ _, rfl, rfl, rfl, hw⟩
  | cmpl =>
    cases hc : s.cell snd skt with
    | idle => exact ⟨_, _, sessionUpdate_cmpl_of_not_outstanding h0 (by simp [hc]), ⟨rfl, rfl, rfl⟩, fun _ _ _ => rfl,
        hc, rfl, rfl, rfl, hw⟩
    | outstanding =>
      by_cases hawait : s.wait = ⟨true, snd, skt⟩
      · refine ⟨_, _, sessionUpdate_cmpl_of_awaited h0 hc hawait, ⟨rfl, rfl, rfl⟩, s.setCell_otherCellsKept _ _ _,
          rfl, ha, ?_⟩
        rw [if_pos hawait]
        exact ⟨s.setCell_cell_same _ _ _, congrArg ({ · with v := false }) hawait, rfl⟩
      · refine ⟨_, _, sessionUpdate_cmpl_of_not_awaited h0 hc hawait, ⟨rfl, rfl, rfl⟩, s.setCell_otherCellsKept _ _ _,
          rfl, ha, ?_⟩
        rw [if_neg hawait]
        exact ⟨s.setCell_cell_same _ _ _, rfl, hw⟩
    | completed => exact ⟨_, _, sessionUpdate_cmpl_of_not_outstanding h0 (by simp [hc]), ⟨rfl, rfl, rfl⟩,
        fun _ _ _ => rfl, hc, rfl, rfl, rfl, hw⟩

/-- Settles O30: an error ends the wait, and a reply is routed; the update has one effect whatever was parsed before. -/
theorem recvIsDecfThenRouting : Obligations.RecvIsDecfThenRouting := by
  intro f s
  cases hd : decodeFrame s.cfg f with
  | error r =>
    obtain ⟨hs, -⟩ := decodeFrame_error hd
    exact ⟨r, exec_decf_of_error hd, fun _ => exec_recv_of_error hd, absurd hs, absurd hs⟩
  | ok r =>
    have hdecf := exec_decf_of_ok hd
    have hrecv := exec_recv_of_ok hd
    refine ⟨r.finish, hdecf, nofun, fun _ hack hcmpl => ?_, fun _ i hi => ?_⟩
    · rw [hdecf, hrecv]
      exact routeReply_of_untracked (.inr ⟨hack, hcmpl⟩)
    · obtain ⟨htype, rfl⟩ | ⟨htype, rfl⟩ := hi
      · exact exec_recv_of_routed (r := r) hd (ev := .ack) rfl (routeReply_of_ack htype)
      · exact exec_recv_of_routed (r := r) hd (ev := .cmpl) rfl (routeReply_of_completion htype)

/-- Settles O31: neither socket 0 nor a data reply reaches the table. -/
theorem recvOfUntrackedReplyOnlyParses : Obligations.RecvOfUntrackedReplyOnlyParses := by
  intro f s hfr hnc htype h
  obtain ⟨r, hd, hhdr⟩ := decodeFrame_of_reply hfr hnc htype
  have ⟨_, _, _, _, hptype, hskt⟩ := hhdr
  rw [← hptype, ← hskt] at h
  have hrecv := (exec_recv_of_ok hd).trans (routeReply_of_untracked h)
  exact ⟨r.finish, rfl, hhdr, hrecv, hrecv.trans (exec_decf_of_ok hd).symm⟩

/-- Settles O32: such a frame is an error of the frame decoder. -/
theorem recvErrorFramesChangeNoCell : Obligations.RecvErrorFramesChangeNoCell := by
  intro f s hfr h
  obtain ⟨r, hd⟩ := decodeFrame_of_errorFrame hfr h
  refine ⟨_, ?_, fun hv => ?_, exec_recv_of_error hd⟩
  · exact (decodeFrame_error hd).1
  · exact if_pos hv

/-- Settles O33: the three cases of the start of a wait. -/
theorem wstartFollowsItsRule : Obligations.WstartFollowsItsRule := by
  intro snd skt s
  refine ⟨startWait_of_refused, fun hv h0 hc => ?_, startWait_of_outstanding⟩
  exact ⟨_, startWait_of_completed hv h0 hc, ⟨rfl, rfl, rfl⟩, rfl, s.setCell_cell_same _ _ _,
    s.setCell_otherCellsKept _ _ _⟩

/-- Settles O35: of an ACK frame WACK is WSTART, which O33 settles. -/
theorem wackStartsOrFinishesWait : Obligations.WackStartsOrFinishesWait := by
  rintro f _ _ s hlen htype rfl rfl hv h0
  obtain ⟨-, hdone, hstart⟩ := wstartFollowsItsRule _ _ s
  rw [exec_wack_of_ack ⟨hlen, htype⟩]
  exact ⟨hstart hv h0, hdone hv h0⟩

/-- Settles O45: the reset input clears `WAIT`, and a request acts in one of the listed ways. -/
theorem pendingWaitEndsInFourWays : Obligations.PendingWaitEndsInFourWays := by
  intro s t hv hstep
  obtain ⟨-, h⟩ | ⟨rest, hin, h⟩ | ⟨q, rest, hin, h⟩ := step_cases s
  · cases h.symm.trans hstep
    exact .inl rfl
  · cases h.symm.trans hstep
    exact .inr (.inl ⟨rest, hin, rfl⟩)
  · obtain ⟨u, r, rfl, he⟩ := exec_next (h.symm.trans hstep)
    obtain hsame | ⟨hend, hway⟩ := he.pendingWait hv
    · exact .inl hsame
    · rw [decode_opcode] at hway
      exact .inr (.inr ⟨q, rest, r, hin, congrArg (r :: ·) he.responses_eq, hend, hway⟩)

/-- Settles O50: each of the three has an effect on its key that the key's cell and `WAIT` determine. -/
theorem otherKeysDoNotMatter : Obligations.OtherKeysDoNotMatter := by
  intro snd skt i s s' hi hc hw
  obtain ⟨e, he⟩ : ∃ e : KeyEffect, ∀ s₁ : State, s₁.cell snd skt = s'.cell snd skt → s₁.wait = s'.wait →
      exec i s₁ = .next (e.apply snd skt .undriven s₁) := by
    obtain rfl | rfl | rfl := hi
    · exact (sessionUpdate_effect .ack snd skt _ _).imp fun _ he => he .undriven
    · exact (sessionUpdate_effect .cmpl snd skt _ _).imp fun _ he => he .undriven
    · exact startWait_effect snd skt _ _
  exact ⟨_, _, _, he s hc hw, he s' rfl rfl, ⟨rfl, rfl, rfl⟩, ⟨rfl, rfl, rfl⟩,
    (State.setCell_cell_same _ _ _ _).trans (State.setCell_cell_same _ _ _ _).symm, rfl⟩

/-- Settles O51: the rows of the three operations, one after the other; only their key is written, Idle at the end. -/
theorem ackCompletionConsumeInBothOrders : Obligations.AckCompletionConsumeInBothOrders := by
  intro snd skt s h0 hc hv
  have hack := sessionUpdate_ack_of_idle (r := .undriven) h0 hc
  have hnot : s.wait ≠ ⟨true, snd, skt⟩ := fun hw => by simp [hw] at hv
  refine ⟨⟨_, _, _, hack, sessionUpdate_cmpl_of_not_awaited h0 (by simp) hnot,
      startWait_of_completed hv h0 (by simp), rfl, ?_, rfl⟩,
    ⟨_, _, _, hack, startWait_of_outstanding hv h0 (by simp),
      sessionUpdate_cmpl_of_awaited h0 (by simp) rfl, rfl, ?_, rfl⟩⟩
  all_goals
    refine State.sess_eq_of_otherCellsKept (snd := snd) (skt := skt) (fun a b hk => ?_) (by simp [hc])
    simp [State.setCell_cell_other _ _ _ _ hk]

/-- Settles O52: the timeout leaves the awaited key Outstanding, with no wait pending. -/
theorem timedOutKeyStaysOutstanding : Obligations.TimedOutKeyStaysOutstanding := by
  intro s hinv hv
  obtain ⟨h0, hc⟩ := hinv.awaitedOutstanding hv
  refine ⟨_, exec_wtmo_of_waiting hv, ?_, ?_, ?_⟩
  · exact ⟨_, sessionUpdate_ack_of_outstanding h0 hc rfl, ⟨rfl, rfl, rfl⟩, rfl⟩
  · exact ⟨_, sessionUpdate_cmpl_of_not_awaited h0 hc nofun, ⟨rfl, rfl, rfl⟩, State.setCell_cell_same _ _ _ _⟩
  · exact ⟨_, startWait_of_outstanding (s := s.clearWait.respond _) rfl h0 hc, ⟨rfl, rfl, rfl⟩,
      congrArg (WaitReg.mk · _ _) hv.symm⟩

/-- Settles O34: the two branches of WACK's check. -/
theorem wackChecksThenStartsWait : Obligations.WackChecksThenStartsWait :=
  fun _ _ => ⟨exec_wack_of_ack, exec_wack_of_not_ack⟩

/-- Settles O36: a pending wait is refused before the key is looked at, and WACK's own check refuses alike. -/
theorem secondWaitIsRefused : Obligations.SecondWaitIsRefused := by
  intro i s hv hi
  cases i with
  | wstart snd skt => exact startWait_of_refused (.inl hv)
  | wack f =>
    by_cases h : f.len.toNat = 3 ∧ (f.bytes.getD 1 0).extractLsb' 4 4 = 4
    · exact (exec_wack_of_ack h).trans (startWait_of_refused (.inl hv))
    · exact exec_wack_of_not_ack h
  | encw | decw | encs | decs | encf | decf | errd | sack | scmp | recv | wtmo | illegal0 | illegalE | illegalF =>
    cases hi

/-- Settles O37: the two branches of WTMO. -/
theorem wtmoEndsWaitWithTimeout : Obligations.WtmoEndsWaitWithTimeout :=
  fun _ => ⟨exec_wtmo_of_waiting, exec_wtmo_of_not_waiting⟩

end Sys2Proof.Machine
end

section
namespace Sys2Proof.Machine

/-! ## A request that raises an error (60_exceptions.md R206) -/

/-- Of the ways a request can act, those of an error: nothing changes, or the pending wait ends, aborted by an event's
error (43_session.md R153) or timed out by WTMO (R170). -/
theorem RequestEffect.of_status_err {i : Instr} {s u : State} {r : Response} (h : RequestEffect i s u r)
    (hs : r.status = 1) :
    (u = s ∧ r.waitEnd = 0 ∧ ¬(s.wait.v = true ∧ (i.feedsEvents = true ∨ i = .wtmo))) ∨
    (u = s.clearWait ∧ s.wait.v = true ∧
      ((i.feedsEvents = true ∧ r.waitEnd = 2) ∨ (i = .wtmo ∧ r.waitEnd = 3))) := by
  cases h with
  | answer hs' | track _ _ _ hs' | complete _ _ _ _ hs' | consumeAwaited _ _ _ _ hs'
  | consumeCompleted _ _ _ _ _ hs' | beginWait _ _ _ _ _ hs' => exact absurd (hs'.symm.trans hs) (by decide)
  | refuse hn _ hw =>
    refine .inl ⟨rfl, hw, fun ⟨hv, hi⟩ => ?_⟩
    obtain ⟨hfeeds, hwtmo⟩ := hn hv
    exact hi.elim (by simp [hfeeds]) hwtmo
  | abort hi hv _ hw => exact .inr ⟨rfl, hv, .inl ⟨hi, hw⟩⟩
  | timeOut hi hv _ _ hw => exact .inr ⟨rfl, hv, .inr ⟨hi, hw⟩⟩

/-- Settles O44: of the three ways an error can leave the state, none writes the table, and the class of the operation
and the pending wait say which one it is. -/
theorem failingRequestKeepsState : Obligations.FailingRequestKeepsState := by
  intro i s t r h ht hs
  obtain ⟨u, rfl, he⟩ := exec_next_of_responses h ht
  obtain ⟨rfl, hw, hno⟩ | ⟨rfl, hv, ⟨hi, hw⟩ | ⟨rfl, hw⟩⟩ := he.of_status_err hs
  · exact ⟨rfl, fun ⟨hv, hi⟩ => absurd ⟨hv, .inl hi⟩ hno, fun ⟨hv, hi⟩ => absurd ⟨hv, .inr hi⟩ hno,
      fun _ => ⟨rfl, hw⟩⟩
  · refine ⟨rfl, fun _ => ⟨rfl, hw⟩, ?_, absurd ⟨hv, .inl hi⟩⟩
    rintro ⟨-, rfl⟩
    cases hi
  · exact ⟨rfl, fun ⟨_, hi⟩ => absurd hi Bool.false_ne_true, fun _ => ⟨rfl, hw⟩, absurd ⟨hv, .inr rfl⟩⟩

end Sys2Proof.Machine
end

section
namespace Sys2Proof.Machine

/-! # Reset and hazards (70_reset_and_hazards.md)

## The frame of a TERM-free payload (R233 H3 and H7, R236) -/

/-- The header byte by its broadcast flag, as the host computes it (41_frame_codec.md R120). -/
theorem header_eq_ite (bc : Bool) (rcpt : DevId) :
    header bc rcpt = if bc then 0x88 else 0x80 ||| rcpt.zeroExtend 8 := by
  cases bc with
  | false => exact header_device rcpt
  | true => exact header_broadcast rcpt

section BuiltFrame
variable {c : Config} {bc : Bool} {rcpt : DevId} {p : Buffer}

theorem buildFrame_dropLast : (buildFrame c bc rcpt p.bytes).dropLast = header bc rcpt :: p.bytes :=
  List.dropLast_concat

theorem buildFrame_getLast? : (buildFrame c bc rcpt p.bytes).getLast? = some c.term :=
  List.getLast?_concat

/-- Before its last byte a frame holds `TERM` neither as its header nor in its payload, so a terminator-stopped read
takes it whole. -/
theorem builtFrame_asRead (hwf : p.wf = true) (h14 : p.len.toNat ≤ 14) (hfree : p.termFree c)
    (hhdr : header bc rcpt ≠ c.term) : (builtFrame c bc rcpt p).asRead c := by
  have hlen : (builtFrame c bc rcpt p).len.toNat = p.len.toNat + 2 := builtFrame_len h14
  refine ⟨builtFrame_wf hwf h14, by omega, by omega, ?_, buildFrame_getLast?⟩
  change c.term ∉ (buildFrame c bc rcpt p.bytes).dropLast
  rw [buildFrame_dropLast]
  exact List.not_mem_cons_of_ne_of_not_mem hhdr.symm hfree

end BuiltFrame

/-! ## The obligations of 70_reset_and_hazards.md -/

/-- Settles O19: the bytes read back from ENCF's port are its frame, which holds `TERM` at its end only. -/
theorem termFreePayloadGivesReadableFrame : Obligations.TermFreePayloadGivesReadableFrame := by
  intro bc rcpt p s hwf h1 h14 hfree hhdr
  refine ⟨_, exec_encf_of_len s h1 h14, ?_⟩
  rw [Response.ofFrame_readBack hwf h14]
  exact builtFrame_asRead hwf h14 hfree (header_eq_ite bc rcpt ▸ hhdr)

/-- Settles O8: the reset input is taken from the port, and `assertReset` writes the table and `WAIT` alone. -/
theorem resetInputKeepsConfigurationAndPorts : Obligations.ResetInputKeepsConfigurationAndPorts := by
  intro s t rest hin hstep
  cases (step_of_reset hin).symm.trans hstep
  exact ⟨State.assertReset_cfg _, State.assertReset_inputs _, State.assertReset_responses _⟩

end Sys2Proof.Machine
end
